-- ==== Sys2Proof/Word.lean ====
section
/-! DEFINITION. The widths of the block's data (spec/00_scope.md R10, R11; spec/20_memory.md R61).
No value of the block is signed; `++` on bit vectors is the spec's concatenation, high part first. -/

namespace Sys2Proof

/-- One byte of ENC_IN or DEC_OUT (R61). -/
abbrev Byte := BitVec 8

/-- A scalar on a 21-bit port, `SCALAR_W = 21` (R8, R80). -/
abbrev Scalar := BitVec 21

/-- A host register, `REG_W = 32` (R44); a counter is held in one of these (log entry 6). -/
abbrev HostWord := BitVec 32

/-- The class code `cls(s)` of a scalar (R82). -/
abbrev ClassCode := BitVec 3

end Sys2Proof
end

