-- ==== Sys2Proof/Config.lean ====
section
/-! DEFINITION. What a build of the block fixes: the open parameters CNT_W and LB_SET
(spec/00_scope.md R8, spec/70_reset_and_hazards.md R304) and the hardwired constants (spec/10_state.md R22). -/

namespace Sys2Proof

/-- The two open parameters of a build (R8, R304). No host action changes them; `State` carries them as plain
data so that every statement holds for every build (log entry 5). -/
structure Build where
  /-- `CNT_W`, the width of every counter and index register. -/
  cntW : Nat
  /-- `LB_SET`, the scalars the decoder strips as line breaks. -/
  lbSet : List Scalar
deriving DecidableEq, Repr

/-- The defaults of R8: `CNT_W = 32`, `LB_SET` = line feed and carriage return. -/
def Build.standard : Build := ⟨32, [0x00000A#21, 0x00000D#21]⟩

/-- `U8_BASE` (R8). -/
def u8Base : Scalar := 0x0400#21

/-- `U12_BASE` (R8). -/
def u12Base : Scalar := 0x4E00#21

/-- `A00_BASE` (R8); the blocks U12a(01), (10) and (11) follow it at steps of 4096 (R81). -/
def a00Base : Scalar := 0x5E00#21

/-- `MAX_RUN`, the greatest run length of one run token (R8). -/
def maxRun : Nat := 4095

/-- `MIN_RUN`, the least run that makes the encoder choose run mode (R8). -/
def minRun : Nat := 3

end Sys2Proof
end

