-- ==== Sys2Proof/Machine/Operands.lean ====
section
/-! DEFINITION. The codepoint space, the helper functions and the selector words: every operand form of the block
(spec/30_encoding.md R80-R85, R91, R92; spec/40_primitives.md R120, R121, R128). All are total functions of bits. -/

namespace Sys2Proof.Machine

/-! ### Classes -/

/-- The class function `cls(s)` (R120), in the order of its pseudocode. -/
def cls (lb : List Scalar) (s : Scalar) : ClassCode :=
  if 0x0400#21 ≤ s ∧ s ≤ 0x04FF#21 then 1#3
  else if 0x4E00#21 ≤ s ∧ s ≤ 0x5DFF#21 then 2#3
  else if 0x5E00#21 ≤ s ∧ s ≤ 0x9DFF#21 then 4#3 + ((s - a00Base) >>> 12).setWidth 3
  else if s ∈ lb then 3#3
  else 0#3

/-- `inU8` (R121). -/
def inU8 (lb : List Scalar) (s : Scalar) : Bool := cls lb s == 1#3

/-- `inU12` (R121). -/
def inU12 (lb : List Scalar) (s : Scalar) : Bool := cls lb s == 2#3

/-- `inU12a`: bit 2 of the class (R121). -/
def inU12a (lb : List Scalar) (s : Scalar) : Bool := (cls lb s).getLsbD 2

/-- `inLB` (R121). -/
def inLB (lb : List Scalar) (s : Scalar) : Bool := cls lb s == 3#3

/-- The scalar lies in one of the six ranges, whatever LB_SET is (R81). -/
def inRange (s : Scalar) : Bool := cls [] s != 0#3

/-- A build of UBC-1: `CNT_W` is at least 1 (R305) and its counters fit the 32-bit views of R47; LB_SET meets no
range (R306). -/
def buildValid (b : Build) : Bool :=
  decide (1 ≤ b.cntW) && decide (b.cntW ≤ 32) && b.lbSet.all (fun s => !inRange s)

/-! ### Helper functions (R128), typed at their natural widths (R141) -/

/-- `toU8(b) = 0x0400 + b`. -/
def toU8 (b : Byte) : Scalar := u8Base + b.setWidth 21

/-- `toU12(n) = 0x4E00 + n`. -/
def toU12 (n : BitVec 12) : Scalar := u12Base + n.setWidth 21

/-- `fromU8(s) = s − 0x0400`, for s in U8. -/
def fromU8 (s : Scalar) : Byte := (s - u8Base).setWidth 8

/-- `fromU12(s) = s − 0x4E00`, for s in U12. -/
def fromU12 (s : Scalar) : BitVec 12 := (s - u12Base).setWidth 12

/-- `tpack(a, b, c)`: the high and the low half of the 24-bit group (R132). -/
def tpack (a b c : Byte) : BitVec 12 × BitVec 12 :=
  (a ++ b.extractLsb' 4 4, b.extractLsb' 0 4 ++ c)

/-- `tunpack(h, l)`: the three bytes of the group (R133). -/
def tunpack (h l : BitVec 12) : Byte × Byte × Byte :=
  (h.extractLsb' 4 8, h.extractLsb' 0 4 ++ l.extractLsb' 8 4, l.extractLsb' 0 8)

/-- `apack(i1, i2)`: block selected by the two high bits, offset by the low ones (R134). -/
def apack (i1 i2 : BitVec 7) : Scalar :=
  a00Base + (i1.extractLsb' 6 1 ++ i2.extractLsb' 6 1 ++ i1.extractLsb' 0 6 ++ i2.extractLsb' 0 6).setWidth 21

/-- `aunpack(s)`, for s in U12a (R135). -/
def aunpack (s : Scalar) : BitVec 7 × BitVec 7 :=
  let d := s - a00Base
  (d.extractLsb' 13 1 ++ d.extractLsb' 6 6, d.extractLsb' 12 1 ++ d.extractLsb' 0 6)

/-- A byte below 128, `w[7] = 0` (R83). -/
def isAscii (b : Byte) : Bool := !b.getLsbD 7

/-- The scalar of two ASCII bytes: `apack` on their low seven bits (R165). -/
def apackBytes (b1 b2 : Byte) : Scalar := apack (b1.setWidth 7) (b2.setWidth 7)

/-- The two bytes of a U12a scalar (R204). -/
def aunpackBytes (s : Scalar) : List Byte :=
  [(aunpack s).1.setWidth 8, (aunpack s).2.setWidth 8]

/-! ### The encoder's selector (R83) -/

/-- The token rows of R83. -/
inductive EncRow where
  | run | apair | triple | single
deriving DecidableEq, Repr

/-- `ESEL[4:0] = HAS2, HAS1, R, A1, A0` of a window (R83). -/
def esel (w : List Byte) : BitVec 5 :=
  let has1 := decide (2 ≤ w.length)
  let has2 := decide (3 ≤ w.length)
  let w0 := w.getD 0 0
  let w1 := w.getD 1 0
  let w2 := w.getD 2 0
  BitVec.ofBool has2 ++ BitVec.ofBool has1 ++ BitVec.ofBool (has2 && w0 == w1 && w1 == w2)
    ++ BitVec.ofBool (has1 && isAscii w1) ++ BitVec.ofBool (isAscii w0)

/-- The first matching row of R83's table, by mask and match. -/
def encRow (e : BitVec 5) : Option EncRow :=
  if e &&& 0b11100#5 = 0b11100#5 then some .run
  else if e &&& 0b01111#5 = 0b01011#5 then some .apair
  else if e &&& 0b11100#5 = 0b11000#5 then some .triple
  else if e &&& 0b10000#5 = 0b00000#5 then some .single
  else none

/-! ### The decoder's selector (R84) -/

/-- The action rows of R84. -/
inductive DecRow where
  | apair | triple | run | ss | last | errPair | errLone
deriving DecidableEq, Repr

/-- `SEL[6:0] = HAS_NEXT, CLS1, CLS0` (R84). -/
def selWord (hasNext : BitVec 1) (cls1 cls0 : ClassCode) : BitVec 7 := hasNext ++ cls1 ++ cls0

/-- The first matching row of R84's table, by mask and match; the last two rows make it total. -/
def decRow (sel : BitVec 7) : DecRow :=
  if sel &&& 0b0000100#7 = 0b0000100#7 then .apair
  else if sel &&& 0b1111111#7 = 0b1010010#7 then .triple
  else if sel &&& 0b1111111#7 = 0b1010001#7 then .run
  else if sel &&& 0b1111111#7 = 0b1001001#7 then .ss
  else if sel &&& 0b1000111#7 = 0b0000001#7 then .last
  else if sel &&& 0b1000000#7 = 0b1000000#7 then .errPair
  else .errLone

end Sys2Proof.Machine
end

