-- ==== Sys2Proof/Syntax.lean ====
section
/-! DEFINITION. The actions of the block, one constructor for each row of spec/opcode_table.json, and the beats
that carry them. The machine never sees a raw word: `decode` turns a beat into an `Instr`. -/

namespace Sys2Proof

/-- One action: a row of spec/opcode_table.json with its operands. The bits of a row's word that the row leaves
open stay operands, so that no bit is dropped (log entry 12). -/
inductive Instr where
  /-- PRIM.CLASS (R123). -/
  | primClass (a b c : Scalar)
  /-- PRIM.B2U8 (R124). -/
  | primB2u8 (a b c : Scalar)
  /-- PRIM.U82B (R125). -/
  | primU82b (a b c : Scalar)
  /-- PRIM.N2U12 (R126). -/
  | primN2u12 (a b c : Scalar)
  /-- PRIM.U122N (R127). -/
  | primU122n (a b c : Scalar)
  /-- PRIM.TPACK (R132). -/
  | primTpack (a b c : Scalar)
  /-- PRIM.TUNPACK (R133). -/
  | primTunpack (a b c : Scalar)
  /-- PRIM.APACK (R134). -/
  | primApack (a b c : Scalar)
  /-- PRIM.AUNPACK (R135). -/
  | primAunpack (a b c : Scalar)
  /-- PRIM.RPACK (R136). -/
  | primRpack (a b c : Scalar)
  /-- PRIM.RUNPACK (R137). -/
  | primRunpack (a b c : Scalar)
  /-- PRIM.RESERVED_B: FSEL 0xB (R138). -/
  | primReservedB (a b c : Scalar)
  /-- PRIM.RESERVED_C_F: FSEL 0xC to 0xF, `fsel` its two low bits (R138). -/
  | primReservedCF (fsel : BitVec 2) (a b c : Scalar)
  /-- E.RUN on a window of three bytes (R163). -/
  | eRun (w0 w1 w2 : Byte)
  /-- E.APAIR on a window of two or three bytes (R165). -/
  | eApair (w0 w1 : Byte) (w2 : Option Byte)
  /-- E.TRIPLE on a window of three bytes (R166). -/
  | eTriple (w0 w1 w2 : Byte)
  /-- E.SINGLE on a window of one or two bytes (R167). -/
  | eSingle (w0 : Byte) (w1 : Option Byte)
  /-- D.SKIP_LB on an arriving scalar (R203). -/
  | dSkipLb (s : Scalar)
  /-- D.APAIR on an arriving scalar; HAS_NEXT, CLS1 and CLS0[1:0] are the bits its row leaves open (R204). -/
  | dApair (hasNext : BitVec 1) (cls1 : ClassCode) (k : BitVec 2) (s : Scalar)
  /-- D.TRIPLE on the pending scalar and an arriving one (R205). -/
  | dTriple (s : Scalar)
  /-- D.RUN on the pending scalar and an arriving one (R206). -/
  | dRun (s : Scalar)
  /-- D.SS on the pending scalar and an arriving one (R208). -/
  | dSs (s : Scalar)
  /-- D.LAST on the pending scalar, at the end of the input (R209). -/
  | dLast (cls1 : ClassCode)
  /-- D.ERR_PAIR on the pending scalar and an arriving one, with the classes of its selector (R210). -/
  | dErrPair (cls1 cls0 : ClassCode) (s : Scalar)
  /-- D.ERR_LONE on the pending scalar, at the end of the input (R211). -/
  | dErrLone (cls1 cls0 : ClassCode)
  /-- ENC.PUSH: a data beat on ENC_IN (R169). -/
  | encPush (x : Byte)
  /-- ENC.END: the end beat on ENC_IN, its DATA bits ignored (R168). -/
  | encEnd (data : Byte)
  /-- DEC.PUSH: a data beat on DEC_IN (R213, R215). -/
  | decPush (s : Scalar)
  /-- DEC.END: the end beat on DEC_IN, its DATA bits ignored (R214). -/
  | decEnd (data : Scalar)
  /-- ENC.START: a write of ENC_CTRL with bit 0 set; `reserved` is WDATA[31:1] (R45, R242). -/
  | encStart (reserved : BitVec 31)
  /-- DEC.START: a write of DEC_CTRL with bit 0 set; `cmode` is bit 1, `reserved` WDATA[31:2] (R48, R243). -/
  | decStart (cmode : BitVec 1) (reserved : BitVec 30)
  /-- WRREG: a write of register `n` (R245). -/
  | wrreg (n : BitVec 4) (v : HostWord)
  /-- RDREG: a read of register `n`, WDATA ignored (R244). -/
  | rdreg (n : BitVec 4) (wdata : HostWord)
  /-- RESET: the reset input is asserted (R300). -/
  | reset
deriving DecidableEq, Repr

/-- What one action looks like at the block's inputs: the port and the word on it (R61, R86-R90). The last three
stand for the selector words the FSMs form inside a step, with the data they act on (R83-R85; log entry 7). -/
inductive Beat where
  /-- The PRIM port word PW (R86). -/
  | prim (pw : BitVec 67)
  /-- The REG port word RW (R90). -/
  | reg (rw : BitVec 37)
  /-- An ENC_IN beat EIN (R87). -/
  | encIn (ein : BitVec 9)
  /-- A DEC_IN beat DIN (R88). -/
  | decIn (din : BitVec 22)
  /-- The reset input RST (R300). -/
  | rst (level : BitVec 1)
  /-- An encoder selector ESEL with the bytes of its window (R83). -/
  | encSel (e : BitVec 5) (w0 w1 w2 : Byte)
  /-- A decoder selector SEL with the arriving scalar (R84). -/
  | decSel (sel : BitVec 7) (s : Scalar)
  /-- The decoder's input filter: a class code with the arriving scalar (R85). -/
  | decFilter (c : ClassCode) (s : Scalar)
deriving DecidableEq, Repr

/-- The ports of R61, and the FSMs' selectors. -/
inductive Port where
  | prim | reg | encIn | decIn | rst | encSel | decSel | decFilter
deriving DecidableEq, Repr

/-- The port a beat arrives on. -/
def Beat.port : Beat → Port
  | .prim _ => .prim
  | .reg _ => .reg
  | .encIn _ => .encIn
  | .decIn _ => .decIn
  | .rst _ => .rst
  | .encSel _ _ _ _ => .encSel
  | .decSel _ _ => .decSel
  | .decFilter _ _ => .decFilter

/-- The beats a host can send (R240): all but the selectors, which the FSMs form themselves. -/
def Beat.isHost (b : Beat) : Bool :=
  match b.port with
  | .prim | .reg | .encIn | .decIn | .rst => true
  | .encSel | .decSel | .decFilter => false

/-- Why a beat is no action of the block (log entry 13). -/
inductive DecodeError where
  /-- RST = 0: the reset input is not asserted, so there is no action. -/
  | resetNotAsserted
  /-- An ESEL word with HAS2 = 1 and HAS1 = 0, which no window forms and no row matches (R83). -/
  | eselUnformable
  /-- A class code other than 3 at the input filter: the scalar goes on to classification (R85). -/
  | notALineBreak
deriving DecidableEq, Repr

end Sys2Proof
end

