-- ==== Sys2Proof/WellFormed.lean ====
section
/-! DEFINITION. Which terms of `Instr` an encoding stands for: a token or decoder row carries operands that form
its own selector (spec/30_encoding.md R83-R85), and a WRREG is not one of the words that are a START
(spec/10_state.md R45, R48). -/

namespace Sys2Proof

open Sys2Proof.Machine

/-- The lookahead bits of a selector as the decoder forms them (R84): CLS1 is 0 when no next scalar exists, and
no class of a selector is 3. -/
def lookaheadFormed (hasNext : BitVec 1) (cls1 : ClassCode) : Bool :=
  cls1 != 3#3 && (hasNext == 1#1 || cls1 == 0#3)

/-- The checks of each row, one line a row. -/
def Instr.wellFormed : Instr → Bool
  | .primClass _ _ _ => true
  | .primB2u8 _ _ _ => true
  | .primU82b _ _ _ => true
  | .primN2u12 _ _ _ => true
  | .primU122n _ _ _ => true
  | .primTpack _ _ _ => true
  | .primTunpack _ _ _ => true
  | .primApack _ _ _ => true
  | .primAunpack _ _ _ => true
  | .primRpack _ _ _ => true
  | .primRunpack _ _ _ => true
  | .primReservedB _ _ _ => true
  | .primReservedCF _ _ _ _ => true
  | .eRun w0 w1 w2 => encRow (esel [w0, w1, w2]) == some .run
  | .eApair w0 w1 w2 => encRow (esel (w0 :: w1 :: w2.toList)) == some .apair
  | .eTriple w0 w1 w2 => encRow (esel [w0, w1, w2]) == some .triple
  | .eSingle w0 w1 => encRow (esel (w0 :: w1.toList)) == some .single
  | .dSkipLb s => !inRange s
  | .dApair hasNext cls1 k s => lookaheadFormed hasNext cls1 && cls [] s == 1#1 ++ k
  | .dTriple s => cls [] s == 2#3
  | .dRun s => cls [] s == 2#3
  | .dSs s => cls [] s == 1#3
  | .dLast cls1 => cls1 == 0#3
  | .dErrPair cls1 cls0 s =>
    decRow (selWord 1#1 cls1 cls0) == .errPair && cls0 != 3#3 && lookaheadFormed 1#1 cls1 && cls [] s == cls1
  | .dErrLone cls1 cls0 => decRow (selWord 0#1 cls1 cls0) == .errLone && cls0 != 3#3 && cls1 == 0#3
  | .encPush _ => true
  | .encEnd _ => true
  | .decPush _ => true
  | .decEnd _ => true
  | .encStart _ => true
  | .decStart _ _ => true
  | .wrreg n v => !(v.getLsbD 0 && (n == 0#4 || n == 4#4))
  | .rdreg _ _ => true
  | .reset => true

/-- A term that an encoding stands for. -/
abbrev Instr.WellFormed (i : Instr) : Prop := i.wellFormed = true

end Sys2Proof
end

