-- ==== Sys2Proof/Decode.lean ====
section
/-! DEFINITION. From beats to actions and back (spec/30_encoding.md R83-R90, R97), and the reading of an opcode
table word. `decode` is total; a beat that is no action is rejected by name. -/

namespace Sys2Proof

open Sys2Proof.Machine

/-! ### Decoding -/

/-- The PRIM port word: FSEL in bits 66:63, A in 62:42, B in 41:21, C in 20:0 (R86). -/
def decodePrim (pw : BitVec 67) : Instr :=
  let fsel := pw.extractLsb' 63 4
  let a := pw.extractLsb' 42 21
  let b := pw.extractLsb' 21 21
  let c := pw.extractLsb' 0 21
  if fsel = 0x0#4 then .primClass a b c
  else if fsel = 0x1#4 then .primB2u8 a b c
  else if fsel = 0x2#4 then .primU82b a b c
  else if fsel = 0x3#4 then .primN2u12 a b c
  else if fsel = 0x4#4 then .primU122n a b c
  else if fsel = 0x5#4 then .primTpack a b c
  else if fsel = 0x6#4 then .primTunpack a b c
  else if fsel = 0x7#4 then .primApack a b c
  else if fsel = 0x8#4 then .primAunpack a b c
  else if fsel = 0x9#4 then .primRpack a b c
  else if fsel = 0xA#4 then .primRunpack a b c
  else if fsel = 0xB#4 then .primReservedB a b c
  else .primReservedCF (fsel.extractLsb' 0 2) a b c

/-- The REG port word: WE in bit 36, RNUM in 35:32, WDATA in 31:0 (R90). The writes of a CTRL register with bit 0
set are the START rows, which come first (R45, R48). -/
def decodeReg (rw : BitVec 37) : Instr :=
  let rnum := rw.extractLsb' 32 4
  let wdata := rw.extractLsb' 0 32
  if rw.getLsbD 36 then
    if wdata.getLsbD 0 && rnum == 0#4 then .encStart (wdata.extractLsb' 1 31)
    else if wdata.getLsbD 0 && rnum == 4#4 then .decStart (wdata.extractLsb' 1 1) (wdata.extractLsb' 2 30)
    else .wrreg rnum wdata
  else .rdreg rnum wdata

/-- The ENC_IN beat: END in bit 8, DATA in 7:0 (R87). -/
def decodeEncIn (ein : BitVec 9) : Instr :=
  if ein.getLsbD 8 then .encEnd (ein.extractLsb' 0 8) else .encPush (ein.extractLsb' 0 8)

/-- The DEC_IN beat: END in bit 21, DATA in 20:0 (R88). -/
def decodeDecIn (din : BitVec 22) : Instr :=
  if din.getLsbD 21 then .decEnd (din.extractLsb' 0 21) else .decPush (din.extractLsb' 0 21)

/-- An encoder selector with its window: the row of R83, with as many bytes as HAS1 and HAS2 say. -/
def decodeEncSel (e : BitVec 5) (w0 w1 w2 : Byte) : Except DecodeError Instr :=
  match encRow e with
  | some .run => .ok (.eRun w0 w1 w2)
  | some .apair => .ok (.eApair w0 w1 (if e.getLsbD 4 then some w2 else none))
  | some .triple => .ok (.eTriple w0 w1 w2)
  | some .single => .ok (.eSingle w0 (if e.getLsbD 3 then some w1 else none))
  | none => .error .eselUnformable

/-- A decoder selector with the arriving scalar: the row of R84, with the selector bits the row leaves open. -/
def decodeDecSel (sel : BitVec 7) (s : Scalar) : Instr :=
  let hasNext := sel.extractLsb' 6 1
  let cls1 := sel.extractLsb' 3 3
  let cls0 := sel.extractLsb' 0 3
  match decRow sel with
  | .apair => .dApair hasNext cls1 (cls0.extractLsb' 0 2) s
  | .triple => .dTriple s
  | .run => .dRun s
  | .ss => .dSs s
  | .last => .dLast cls1
  | .errPair => .dErrPair cls1 cls0 s
  | .errLone => .dErrLone cls1 cls0

/-- The action a beat stands for, or the name of why it is none. -/
def decode : Beat → Except DecodeError Instr
  | .prim pw => .ok (decodePrim pw)
  | .reg rw => .ok (decodeReg rw)
  | .encIn ein => .ok (decodeEncIn ein)
  | .decIn din => .ok (decodeDecIn din)
  | .rst level => if level = 1#1 then .ok .reset else .error .resetNotAsserted
  | .encSel e w0 w1 w2 => decodeEncSel e w0 w1 w2
  | .decSel sel s => .ok (decodeDecSel sel s)
  | .decFilter c s => if c &&& 0b111#3 = 0b011#3 then .ok (.dSkipLb s) else .error .notALineBreak

/-! ### Encoding -/

/-- `PW = {FSEL, A, B, C}` (R86). -/
def primWord (fsel : BitVec 4) (a b c : Scalar) : Beat := .prim (fsel ++ a ++ b ++ c)

/-- `RW = {WE, RNUM, WDATA}` (R90). -/
def regWord (we : BitVec 1) (rnum : BitVec 4) (wdata : HostWord) : Beat := .reg (we ++ rnum ++ wdata)

/-- The ESEL beat of a window (R83); the bytes a shorter window lacks are 0. -/
def encSelBeat (w : List Byte) : Beat := .encSel (esel w) (w.getD 0 0) (w.getD 1 0) (w.getD 2 0)

/-- The beat of an action, written from the encoding tables (R83-R90, R97). -/
def encode : Instr → Beat
  | .primClass a b c => primWord 0x0#4 a b c
  | .primB2u8 a b c => primWord 0x1#4 a b c
  | .primU82b a b c => primWord 0x2#4 a b c
  | .primN2u12 a b c => primWord 0x3#4 a b c
  | .primU122n a b c => primWord 0x4#4 a b c
  | .primTpack a b c => primWord 0x5#4 a b c
  | .primTunpack a b c => primWord 0x6#4 a b c
  | .primApack a b c => primWord 0x7#4 a b c
  | .primAunpack a b c => primWord 0x8#4 a b c
  | .primRpack a b c => primWord 0x9#4 a b c
  | .primRunpack a b c => primWord 0xA#4 a b c
  | .primReservedB a b c => primWord 0xB#4 a b c
  | .primReservedCF fsel a b c => primWord (0b11#2 ++ fsel) a b c
  | .eRun w0 w1 w2 => encSelBeat [w0, w1, w2]
  | .eApair w0 w1 w2 => encSelBeat (w0 :: w1 :: w2.toList)
  | .eTriple w0 w1 w2 => encSelBeat [w0, w1, w2]
  | .eSingle w0 w1 => encSelBeat (w0 :: w1.toList)
  | .dSkipLb s => .decFilter 0b011#3 s
  | .dApair hasNext cls1 k s => .decSel (selWord hasNext cls1 (1#1 ++ k)) s
  | .dTriple s => .decSel 0b1010010#7 s
  | .dRun s => .decSel 0b1010001#7 s
  | .dSs s => .decSel 0b1001001#7 s
  | .dLast cls1 => .decSel (selWord 0#1 cls1 1#3) 0#21
  | .dErrPair cls1 cls0 s => .decSel (selWord 1#1 cls1 cls0) s
  | .dErrLone cls1 cls0 => .decSel (selWord 0#1 cls1 cls0) 0#21
  | .encPush x => .encIn (0#1 ++ x)
  | .encEnd data => .encIn (1#1 ++ data)
  | .decPush s => .decIn (0#1 ++ s)
  | .decEnd data => .decIn (1#1 ++ data)
  | .encStart reserved => regWord 1#1 0#4 (reserved ++ 1#1)
  | .decStart cmode reserved => regWord 1#1 4#4 (reserved ++ cmode ++ 1#1)
  | .wrreg n v => regWord 1#1 n v
  | .rdreg n wdata => regWord 0#1 n wdata
  | .reset => .rst 1#1

/-! ### Opcode table words -/

/-- A table word of one byte. Four formats of the table share that size (ESEL, SEL, cls and RST), and the table's
numbering does not say which is meant; this is the model's reading (log entry 8). -/
def oneByteBeat (w : Nat) : Option Beat :=
  if w = 1 then some (.rst 1#1)
  else if w = 3 then some (.decFilter 0b011#3 0#21)
  else if w = 0 ∨ (8 ≤ w ∧ w < 32) then some (.encSel (BitVec.ofNat 5 w) 0#8 0#8 0#8)
  else if w < 128 then some (.decSel (BitVec.ofNat 7 w) 0#21)
  else none

/-- The beat of a table word: the format is told by its number of bits, given exactly or in whole bytes. A word with
bits beyond its format is none. The operand bytes and scalars of a selector row are 0. -/
def tableBeat (nbits w : Nat) : Option Beat :=
  if nbits = 67 ∨ nbits = 72 then (if w < 2 ^ 67 then some (.prim (BitVec.ofNat 67 w)) else none)
  else if nbits = 37 ∨ nbits = 40 then (if w < 2 ^ 37 then some (.reg (BitVec.ofNat 37 w)) else none)
  else if nbits = 22 ∨ nbits = 24 then (if w < 2 ^ 22 then some (.decIn (BitVec.ofNat 22 w)) else none)
  else if nbits = 9 ∨ nbits = 16 then (if w < 2 ^ 9 then some (.encIn (BitVec.ofNat 9 w)) else none)
  else if nbits = 8 then oneByteBeat w
  else if nbits = 7 then (if w < 2 ^ 7 then some (.decSel (BitVec.ofNat 7 w) 0#21) else none)
  else if nbits = 5 then (if w < 2 ^ 5 then some (.encSel (BitVec.ofNat 5 w) 0#8 0#8 0#8) else none)
  else if nbits = 3 then (if w < 2 ^ 3 then some (.decFilter (BitVec.ofNat 3 w) 0#21) else none)
  else if nbits = 1 then (if w < 2 then some (.rst (BitVec.ofNat 1 w)) else none)
  else none

/-- The instruction the decoder reads from a word numbered as spec/opcode_table.json numbers it. -/
def decodeTableWord (nbits w : Nat) : Option Instr :=
  match tableBeat nbits w with
  | some b =>
    match decode b with
    | .ok i => some i
    | .error _ => none
  | none => none

end Sys2Proof
end

