-- ==== Sys2Proof/Machine/State.lean ====
section
/-! DEFINITION. The state of the block (spec/10_state.md), the reasons a step can stop, and the state after reset
(R56). All plain data. -/

namespace Sys2Proof.Machine

/-- ENC.PHASE (R24): IDLE 0, BUSY 1, DONE 2. Code 3 is never taken (log entry 9). -/
inductive EncPhase where
  | idle | busy | done
deriving DecidableEq, Repr

/-- ENC.MODE (R25): WIN 0, RUN 1. -/
inductive EncMode where
  | win | run
deriving DecidableEq, Repr

/-- DEC.PHASE (R33): IDLE 0, BUSY 1, DRAIN 2, DONE 3. -/
inductive DecPhase where
  | idle | busy | drain | done
deriving DecidableEq, Repr

/-- DEC.CMODE (R35): EMIT 0, COUNT 1. -/
inductive CMode where
  | emit | count
deriving DecidableEq, Repr

/-- DEC.ERR_KIND (R38): NONE 0, PAIR 1, LONE 2. Code 3 is never taken (log entry 9). -/
inductive ErrKind where
  | none | pair | lone
deriving DecidableEq, Repr

/-- RERR (R86): OK 0, RANGE 1, ILLEGAL 2. Value 3 is never produced (log entry 9). -/
inductive RErr where
  | ok | range | illegal
deriving DecidableEq, Repr

/-- The result of a PRIM evaluation (R86, R122). -/
structure PrimResult where
  r0 : Scalar
  r1 : Scalar
  r2 : Scalar
  rerr : RErr
deriving DecidableEq, Repr

/-- What the block answered to the last action: it belongs to that step alone (R241, R254; log entry 4). -/
inductive Response where
  /-- No action has been performed yet. -/
  | quiet
  /-- The action was accepted and returns nothing. -/
  | accepted
  /-- The action was not accepted: the state is unchanged and the host must not count it as done. -/
  | notAccepted
  /-- The results of a PRIM evaluation. -/
  | prim (r : PrimResult)
  /-- RDATA of a register read. -/
  | rdata (v : HostWord)
deriving DecidableEq, Repr

/-- The ENC registers (R24-R31) and the stream ENC_OUT (R55). -/
structure Enc where
  /-- ENC.PHASE (R24). -/
  phase : EncPhase
  /-- ENC.MODE (R25). -/
  mode : EncMode
  /-- ENC.WCNT (R26). -/
  wcnt : BitVec 2
  /-- ENC.W0 (R27). -/
  w0 : Byte
  /-- ENC.W1 (R27). -/
  w1 : Byte
  /-- ENC.RB (R28). -/
  rb : Byte
  /-- ENC.RC (R28). -/
  rc : BitVec 12
  /-- ENC.IN_COUNT (R29). -/
  inCount : HostWord
  /-- ENC.OUT_COUNT (R30). -/
  outCount : HostWord
  /-- ENC.OVF (R31). -/
  ovf : Bool
  /-- ENC_OUT, oldest first (R55). -/
  out : List Scalar
deriving DecidableEq, Repr

/-- The DEC registers (R33-R41) and the stream DEC_OUT (R55). -/
structure Dec where
  /-- DEC.PHASE (R33). -/
  phase : DecPhase
  /-- DEC.CMODE (R35). -/
  cmode : CMode
  /-- DEC.PV (R34). -/
  pv : Bool
  /-- DEC.P (R34). -/
  p : Scalar
  /-- DEC.PC (R34). -/
  pc : ClassCode
  /-- DEC.PIDX (R34). -/
  pidx : HostWord
  /-- DEC.IDX (R36). -/
  idx : HostWord
  /-- DEC.OUT_COUNT (R37). -/
  outCount : HostWord
  /-- DEC.ERR (R38). -/
  err : Bool
  /-- DEC.ERR_KIND (R38). -/
  errKind : ErrKind
  /-- DEC.ERR_IDX (R39). -/
  errIdx : HostWord
  /-- DEC.ERR_SEL (R40). -/
  errSel : BitVec 7
  /-- DEC.OVF (R41). -/
  ovf : Bool
  /-- DEC_OUT, oldest first (R55). -/
  out : List Byte
deriving DecidableEq, Repr

/-- The whole machine (R20): the two units, the parameters of the build, and the model's own side of the ports. -/
structure State where
  /-- The parameters fixed when the block is built (R304; log entry 5). -/
  build : Build
  /-- The ENC unit. -/
  enc : Enc
  /-- The DEC unit. -/
  dec : Dec
  /-- The model's own: the answer to the last action (log entry 4). -/
  resp : Response
  /-- The model's own: the actions the host has still to perform, next first (log entry 1). -/
  inputs : List Beat
  /-- The model's own: the beats the host could not deliver, oldest first (R246; log entry 3). -/
  held : List Beat
deriving DecidableEq, Repr

/-- Why a machine could stop with a fault. No error of the block traps (R276). -/
inductive Fault where
  /-- The encoder's defensive range check, which R129, R278 and I4 allow a model to keep as a fault that no run
  reaches. No meaning raises it: the operands' types hold them in range (log entry 11). Safe. -/
  | rangeAssertion
deriving DecidableEq, Repr

/-- Why the machine refuses a step. -/
inductive Refusal where
  /-- Raised by `exec` for an instruction that has no meaning yet. Safe. -/
  | notModelled (mnemonic : String)
  /-- Raised by `step` for a beat that is no action of the block, with the decoder's reason (log entry 13). Safe. -/
  | noAction (reason : DecodeError)
  /-- Raised by `step` for a build that is not UBC-1: CNT_W out of range or LB_SET meeting a range (R305, R306; log
  entry 5). Safe. -/
  | notUbc1
deriving DecidableEq, Repr

/-- ENC after reset (R56). -/
def Enc.reset : Enc :=
  { phase := .idle, mode := .win, wcnt := 0#2, w0 := 0#8, w1 := 0#8, rb := 0#8, rc := 0#12,
    inCount := 0#32, outCount := 0#32, ovf := false, out := [] }

/-- DEC after reset (R56). -/
def Dec.reset : Dec :=
  { phase := .idle, cmode := .emit, pv := false, p := 0#21, pc := 0#3, pidx := 0#32, idx := 0#32,
    outCount := 0#32, err := false, errKind := .none, errIdx := 0#32, errSel := 0#7, ovf := false, out := [] }

/-- The machine right after reset, with the default parameters (R8, R56, R301). -/
def State.reset : State :=
  { build := Build.standard, enc := Enc.reset, dec := Dec.reset, resp := .quiet, inputs := [], held := [] }

end Sys2Proof.Machine
end

