-- ==== Sys2Proof/Machine/Flags.lean ====
section
/-! DEFINITION. Counters and flags (spec/10_state.md R29-R31, R36, R37, R41, R43) and the codes under which the
status registers show them (R24, R33, R35, R38, R86). -/

namespace Sys2Proof.Machine

/-- A counter of `cntW` bits advances by one, modulo `2 ^ cntW` (R29). -/
def countUp (cntW : Nat) (c : HostWord) : HostWord := BitVec.ofNat 32 ((c.toNat + 1) % 2 ^ cntW)

/-- The sticky overflow bit after a counter has advanced to `c`: set by a wrap to 0, never cleared here (R31, R41). -/
def stickyOvf (ovf : Bool) (c : HostWord) : Bool := ovf || c == 0#32

/-- The code of ENC.PHASE (R24). -/
def EncPhase.code : EncPhase → BitVec 2
  | .idle => 0#2
  | .busy => 1#2
  | .done => 2#2

/-- The code of DEC.PHASE (R33). -/
def DecPhase.code : DecPhase → BitVec 2
  | .idle => 0#2
  | .busy => 1#2
  | .drain => 2#2
  | .done => 3#2

/-- The code of DEC.CMODE (R35). -/
def CMode.code : CMode → BitVec 1
  | .emit => 0#1
  | .count => 1#1

/-- The mode a code stands for (R35). -/
def cmodeOf (m : BitVec 1) : CMode := if m = 1#1 then .count else .emit

/-- The code of DEC.ERR_KIND (R38). -/
def ErrKind.code : ErrKind → BitVec 2
  | .none => 0#2
  | .pair => 1#2
  | .lone => 2#2

/-- The code of RERR (R86). -/
def RErr.code : RErr → BitVec 2
  | .ok => 0#2
  | .range => 1#2
  | .illegal => 2#2

end Sys2Proof.Machine
end

