-- ==== Sys2Proof/Machine/Ops.lean ====
section
/-! DEFINITION. The shared operations: emitting on a stream, a decode error and its return, the register views, the
ways an action ends, and taking the next action from the host. -/

namespace Sys2Proof.Machine

/-! ### Streams -/

/-- `Emit(ENC_OUT, s)` with its count (spec/41_encoder.md, `emit`; R30, R31). -/
def encEmit (b : Build) (e : Enc) (s : Scalar) : Enc :=
  { e with
    out := e.out ++ [s]
    outCount := countUp b.cntW e.outCount
    ovf := stickyOvf e.ovf (countUp b.cntW e.outCount) }

/-- `out(b)`: one decoded byte, emitted in EMIT mode and counted in both (R202). -/
def decOut (b : Build) (d : Dec) (x : Byte) : Dec :=
  { d with
    out := if d.cmode = .emit then d.out ++ [x] else d.out
    outCount := countUp b.cntW d.outCount
    ovf := stickyOvf d.ovf (countUp b.cntW d.outCount) }

/-- `out` of several bytes, in order (R202). -/
def decOuts (b : Build) : Dec → List Byte → Dec
  | d, [] => d
  | d, x :: xs => decOuts b (decOut b d x) xs

/-! ### Errors -/

/-- Taking a decode error: `error(kind, idx, sel)` (R212). Nothing traps: the fields are recorded and the unit drains. -/
def raiseDecodeError (d : Dec) (kind : ErrKind) (idx : HostWord) (sel : BitVec 7) : Dec :=
  { d with err := true, errKind := kind, errIdx := idx, errSel := sel, pv := false, phase := .drain }

/-- The return from one, and the end of every DEC transaction: PHASE becomes DONE and the error stays recorded
(R214, R277). -/
def returnFromTransaction (d : Dec) : Dec := { d with phase := .done }

/-! ### Register views (R44) -/

/-- ENC_STATUS: PHASE in bits 1:0, OVF in bit 2 (R46). -/
def encStatus (e : Enc) : HostWord := (BitVec.ofBool e.ovf ++ e.phase.code).setWidth 32

/-- DEC_STATUS: PHASE 1:0, ERR 2, ERR_KIND 4:3, OVF 5, CMODE 6 (R49). -/
def decStatus (d : Dec) : HostWord :=
  (d.cmode.code ++ BitVec.ofBool d.ovf ++ d.errKind.code ++ BitVec.ofBool d.err ++ d.phase.code).setWidth 32

/-- `view(n)`: the content of host register `n`; ENC_CTRL, DEC_CTRL and the reserved numbers read 0 (R44-R53). -/
def view (s : State) (n : BitVec 4) : HostWord :=
  match n.toNat with
  | 1 => encStatus s.enc
  | 2 => s.enc.inCount
  | 3 => s.enc.outCount
  | 5 => decStatus s.dec
  | 6 => s.dec.idx
  | 7 => s.dec.outCount
  | 8 => s.dec.errIdx
  | 9 => s.dec.errSel.setWidth 32
  | _ => 0#32

/-! ### Scan positions (R23) -/

/-- The bytes ENC holds without output: the run it counts, or its window. -/
def encHeldCount (e : Enc) : Nat := if e.mode = .run then e.rc.toNat else e.wcnt.toNat

/-- ENC's scan position: IN_COUNT less the bytes held, modulo `2 ^ CNT_W` (R23, R31). -/
def encScanPos (b : Build) (e : Enc) : HostWord :=
  BitVec.ofNat 32 ((e.inCount - BitVec.ofNat 32 (encHeldCount e)).toNat % 2 ^ b.cntW)

/-- DEC's scan position: IDX less PV, modulo `2 ^ CNT_W` (R23, R36). -/
def decScanPos (b : Build) (d : Dec) : HostWord :=
  BitVec.ofNat 32 ((d.idx - BitVec.ofNat 32 d.pv.toNat).toNat % 2 ^ b.cntW)

/-! ### How an action ends -/

/-- The outcome of a step. -/
abbrev Result := Host.Outcome State Fault Refusal

/-- An accepted action that leaves ENC as `e` (R241). -/
def acceptEnc (s : State) (e : Enc) : Result := .next { s with enc := e, resp := .accepted }

/-- An accepted action that leaves DEC as `d` (R241). -/
def acceptDec (s : State) (d : Dec) : Result := .next { s with dec := d, resp := .accepted }

/-- An action that returns an answer and changes no register (R122, R244). -/
def answer (s : State) (r : Response) : Result := .next { s with resp := r }

/-- An action that is not accepted: no register changes (R241, R246). -/
def notAccept (s : State) : Result := .next { s with resp := .notAccepted }

/-! ### The host's side -/

/-- The host's next action, and the state once the host has performed it (R71 (a), R240). -/
def fetch (s : State) : Option (Beat × State) :=
  match s.inputs with
  | [] => none
  | b :: rest => some (b, { s with inputs := rest })

/-- A beat of the host's that was not accepted is one the host holds and cannot deliver (R246). -/
def holdIfNotAccepted (b : Beat) : Result → Result
  | .next s => if s.resp = .notAccepted ∧ b.isHost then .next { s with held := s.held ++ [b] } else .next s
  | .fault r => .fault r
  | .refused r => .refused r

/-- The host loads one more action, to be performed next. -/
def loadNext (s : State) (b : Beat) : State := { s with inputs := b :: s.inputs }

end Sys2Proof.Machine
end

