-- ==== Sys2Proof/Machine/Decoder.lean ====
section
/-! DEFINITION. The DEC unit (spec/42_decoder.md R201-R215) and its START (R243). The rows of R84 and the two beats
share the operations of the first section. -/

namespace Sys2Proof.Machine

/-! ### Row actions -/

/-- D.APAIR: the two bytes of a U12a scalar (R204). -/
def outApair (b : Build) (d : Dec) (s : Scalar) : Dec := decOuts b d (aunpackBytes s)

/-- D.TRIPLE: the three bytes of the pending scalar and `s` (R205). -/
def outTriple (b : Build) (d : Dec) (s : Scalar) : Dec :=
  let t := tunpack (fromU12 d.p) (fromU12 s)
  { decOuts b d [t.1, t.2.1, t.2.2] with pv := false }

/-- D.RUN: the pending byte, as often as `s` says (R206). -/
def outRun (b : Build) (d : Dec) (s : Scalar) : Dec :=
  { decOuts b d (List.replicate (fromU12 s).toNat (fromU8 d.p)) with pv := false }

/-- D.SS: the two bytes of the pending scalar and `s` (R208). -/
def outSs (b : Build) (d : Dec) (s : Scalar) : Dec := { decOuts b d [fromU8 d.p, fromU8 s] with pv := false }

/-- D.LAST: the byte of the pending scalar (R209). -/
def outLast (b : Build) (d : Dec) : Dec := { decOut b d (fromU8 d.p) with pv := false }

/-! ### The two beats -/

/-- One more scalar is counted (R213). -/
def countIdx (b : Build) (d : Dec) : Dec :=
  { d with idx := countUp b.cntW d.idx, ovf := stickyOvf d.ovf (countUp b.cntW d.idx) }

/-- A scalar of class `c` is held until its partner or END arrives, with the index `j` it arrived at (R213). -/
def holdScalar (d : Dec) (s : Scalar) (c : ClassCode) (j : HostWord) : Dec :=
  { d with p := s, pc := c, pidx := j, pv := true }

/-- The pending scalar and `s`, of class `c`, are classified, in the order of R213's tests. -/
def classifyPair (b : Build) (d : Dec) (s : Scalar) (c : ClassCode) : Dec :=
  let sel := selWord 1#1 c d.pc
  if sel = 0b1010010#7 then outTriple b d s
  else if sel = 0b1010001#7 then outRun b d s
  else if sel = 0b1001001#7 then outSs b d s
  else raiseDecodeError d .pair d.pidx sel

/-- DEC.PUSH, the complete step in BUSY (R213). -/
def pushScalar (b : Build) (d : Dec) (s : Scalar) : Dec :=
  let c := cls b.lbSet s
  if c = 3#3 then d
  else if d.pv then classifyPair b (countIdx b d) s c
  else if c.getLsbD 2 then outApair b (countIdx b d) s
  else holdScalar (countIdx b d) s c d.idx

/-- The end of the input with a scalar pending (R214). -/
def classifyLone (b : Build) (d : Dec) : Dec :=
  if d.pc = 1#3 then outLast b d else raiseDecodeError d .lone d.pidx (selWord 0#1 0#3 d.pc)

/-- DEC.END, the complete step in BUSY or DRAIN (R214). -/
def endScalars (b : Build) (d : Dec) : Dec :=
  returnFromTransaction (if d.phase = .busy ∧ d.pv = true then classifyLone b d else d)

/-- DEC.START while no transaction runs (R243). -/
def startDec (d : Dec) (m : CMode) : Dec :=
  { d with
    phase := .busy, cmode := m, pv := false, idx := 0#32, outCount := 0#32
    err := false, errKind := .none, errIdx := 0#32, errSel := 0#7, ovf := false, out := [] }

/-- A transaction is running: the unit accepts beats and ignores START (R241, R243). -/
def decRunning (d : Dec) : Bool := d.phase == .busy || d.phase == .drain

/-- DEC.START: ignored while a transaction runs (R243). -/
def decStartOp (d : Dec) (m : CMode) : Dec := if decRunning d then d else startDec d m

/-! ### When a row by itself is performed (R84, R201; log entry 7) -/

/-- The unit is BUSY, a scalar is pending, `s` is no line break, and the two form the selector `sel`. -/
def pairSelects (b : Build) (d : Dec) (s : Scalar) (sel : BitVec 7) : Bool :=
  d.phase == .busy && d.pv && cls b.lbSet s != 3#3 && selWord 1#1 (cls b.lbSet s) d.pc == sel

/-- The unit is BUSY, a scalar is pending, and at the end of the input it forms the selector `sel`. -/
def loneSelects (d : Dec) (sel : BitVec 7) : Bool :=
  d.phase == .busy && d.pv && selWord 0#1 0#3 d.pc == sel

/-- A row by itself: performed where it is the one selected. -/
def execRow (selected : Bool) (d : Dec) (s : State) : Result := if selected then acceptDec s d else notAccept s

/-! ### Instructions -/

/-- D.SKIP_LB: the scalar is discarded and no register changes (R203). -/
def execDSkipLb (x : Scalar) (s : State) : Result :=
  execRow (s.dec.phase == .busy && inLB s.build.lbSet x) s.dec s

/-- D.APAIR: a U12a scalar at the scan position, whatever follows it (R204). -/
def execDApair (_hasNext : BitVec 1) (_cls1 : ClassCode) (k : BitVec 2) (x : Scalar) (s : State) : Result :=
  execRow (s.dec.phase == .busy && !s.dec.pv && cls s.build.lbSet x == 1#1 ++ k) (outApair s.build s.dec x) s

/-- D.TRIPLE (R205). -/
def execDTriple (x : Scalar) (s : State) : Result :=
  execRow (pairSelects s.build s.dec x 0b1010010#7) (outTriple s.build s.dec x) s

/-- D.RUN (R206). -/
def execDRun (x : Scalar) (s : State) : Result :=
  execRow (pairSelects s.build s.dec x 0b1010001#7) (outRun s.build s.dec x) s

/-- D.SS (R208). -/
def execDSs (x : Scalar) (s : State) : Result :=
  execRow (pairSelects s.build s.dec x 0b1001001#7) (outSs s.build s.dec x) s

/-- D.LAST (R209). -/
def execDLast (cls1 : ClassCode) (s : State) : Result :=
  execRow (loneSelects s.dec (selWord 0#1 cls1 1#3)) (outLast s.build s.dec) s

/-- D.ERR_PAIR (R210). -/
def execDErrPair (cls1 cls0 : ClassCode) (x : Scalar) (s : State) : Result :=
  execRow (pairSelects s.build s.dec x (selWord 1#1 cls1 cls0) && decRow (selWord 1#1 cls1 cls0) == .errPair)
    (raiseDecodeError s.dec .pair s.dec.pidx (selWord 1#1 cls1 cls0)) s

/-- D.ERR_LONE (R211). -/
def execDErrLone (cls1 cls0 : ClassCode) (s : State) : Result :=
  execRow (loneSelects s.dec (selWord 0#1 cls1 cls0) && decRow (selWord 0#1 cls1 cls0) == .errLone)
    (raiseDecodeError s.dec .lone s.dec.pidx (selWord 0#1 cls1 cls0)) s

/-- DEC.PUSH: R213 in BUSY, discarded in DRAIN (R215), not accepted in IDLE or DONE (R246). -/
def execDecPush (x : Scalar) (s : State) : Result :=
  if s.dec.phase = .busy then acceptDec s (pushScalar s.build s.dec x)
  else if s.dec.phase = .drain then acceptDec s s.dec
  else notAccept s

/-- DEC.END, its DATA ignored (R214); not accepted in IDLE or DONE (R246). -/
def execDecEnd (_data : Scalar) (s : State) : Result :=
  if decRunning s.dec then acceptDec s (endScalars s.build s.dec) else notAccept s

/-- DEC.START: always accepted, without effect in BUSY or DRAIN; the reserved bits are ignored (R48, R241, R243). -/
def execDecStart (cmode : BitVec 1) (_reserved : BitVec 30) (s : State) : Result :=
  acceptDec s (decStartOp s.dec (cmodeOf cmode))

end Sys2Proof.Machine
end

