-- ==== Sys2Proof/Machine/Encoder.lean ====
section
/-! DEFINITION. The ENC unit (spec/41_encoder.md R161-R169) and its START (R242). The token actions and the two
beats share the operations of the first section; the window is passed as a list of one to three bytes. -/

namespace Sys2Proof.Machine

/-! ### Token actions on a window: the unit after the action, and the bytes still to tokenize -/

/-- `RUN_OPEN(w)` (R163). -/
def runOpen (e : Enc) (w : List Byte) : Enc × List Byte :=
  ({ e with mode := .run, rb := w.getD 0 0, rc := 3#12, wcnt := 0#2 }, [])

/-- `APAIR(w)` (R165). -/
def emitApair (b : Build) (e : Enc) (w : List Byte) : Enc × List Byte :=
  (encEmit b e (apackBytes (w.getD 0 0) (w.getD 1 0)), w.drop 2)

/-- `TRIPLE(w)` (R166). -/
def emitTriple (b : Build) (e : Enc) (w : List Byte) : Enc × List Byte :=
  let hl := tpack (w.getD 0 0) (w.getD 1 0) (w.getD 2 0)
  (encEmit b (encEmit b e (toU12 hl.1)) (toU12 hl.2), [])

/-- `SINGLE(w)` (R167). -/
def emitSingle (b : Build) (e : Enc) (w : List Byte) : Enc × List Byte :=
  (encEmit b e (toU8 (w.getD 0 0)), w.drop 1)

/-- The action of a token row (R163, R165-R167). -/
def tokenAction (b : Build) (e : Enc) (row : EncRow) (w : List Byte) : Enc × List Byte :=
  match row with
  | .run => runOpen e w
  | .apair => emitApair b e w
  | .triple => emitTriple b e w
  | .single => emitSingle b e w

/-- `decide(w)`: the action of the first row that the window's ESEL matches (R162). A window of 1 to 3 bytes always
matches a row. -/
def decideWindow (b : Build) (e : Enc) (w : List Byte) : Enc × List Byte :=
  match encRow (esel w) with
  | some row => tokenAction b e row w
  | none => (e, [])

/-- The bytes left over become the unit's window, in WIN mode (R169). -/
def keepRest (e : Enc) (rest : List Byte) : Enc :=
  if e.mode = .win then
    { e with wcnt := BitVec.ofNat 2 rest.length, w0 := if rest.length = 1 then rest.getD 0 0 else e.w0 }
  else e

/-! ### The two beats -/

/-- Closing a run: its U8 scalar, then its U12 scalar (R164, R168). -/
def closeRun (b : Build) (e : Enc) : Enc := { encEmit b (encEmit b e (toU8 e.rb)) (toU12 e.rc) with mode := .win }

/-- One more input byte is counted (R169). -/
def countIn (b : Build) (e : Enc) : Enc :=
  { e with inCount := countUp b.cntW e.inCount, ovf := stickyOvf e.ovf (countUp b.cntW e.inCount) }

/-- ENC.PUSH in RUN mode: the run grows, or closes and the byte starts a window (R164). -/
def pushRun (b : Build) (e : Enc) (x : Byte) : Enc :=
  if x = e.rb ∧ e.rc < 4095#12 then { e with rc := e.rc + 1#12 }
  else { closeRun b e with w0 := x, wcnt := 1#2 }

/-- ENC.PUSH in WIN mode: the window fills, or is full with this byte and is decided (R169). -/
def pushWin (b : Build) (e : Enc) (x : Byte) : Enc :=
  if e.wcnt = 0#2 then { e with w0 := x, wcnt := 1#2 }
  else if e.wcnt = 1#2 then { e with w1 := x, wcnt := 2#2 }
  else keepRest (decideWindow b e [e.w0, e.w1, x]).1 (decideWindow b e [e.w0, e.w1, x]).2

/-- ENC.PUSH, the complete step in BUSY (R169). -/
def pushByte (b : Build) (e : Enc) (x : Byte) : Enc :=
  let e := countIn b e
  if e.mode = .run then pushRun b e x else pushWin b e x

/-- The loop of ENC.END over a window, at most `n` decisions (R168). Each decision takes at least one byte. -/
def flushWindow (b : Build) : Nat → Enc → List Byte → Enc
  | 0, e, _ => e
  | _ + 1, e, [] => e
  | n + 1, e, w => flushWindow b n (decideWindow b e w).1 (decideWindow b e w).2

/-- The bytes the window holds, `[W0, W1][0 : WCNT]` (R168). -/
def heldWindow (e : Enc) : List Byte := [e.w0, e.w1].take e.wcnt.toNat

/-- ENC.END, the complete step in BUSY (R168). -/
def endInput (b : Build) (e : Enc) : Enc :=
  let e := if e.mode = .run then closeRun b e else flushWindow b 2 e (heldWindow e)
  { e with wcnt := 0#2, phase := .done }

/-- ENC.START while no transaction runs (R242). -/
def startEnc (e : Enc) : Enc :=
  { e with
    phase := .busy, mode := .win, wcnt := 0#2, rb := 0#8, rc := 0#12
    inCount := 0#32, outCount := 0#32, ovf := false, out := [] }

/-- ENC.START: ignored while a transaction runs (R242). -/
def encStartOp (e : Enc) : Enc := if e.phase = .busy then e else startEnc e

/-! ### Instructions -/

/-- A token row by itself: it is performed where the unit is BUSY in WIN mode and the row is the one its window
selects, and the bytes left over become the unit's window (R161, R162, R169; log entry 7). -/
def execToken (row : EncRow) (w : List Byte) (s : State) : Result :=
  if s.enc.phase = .busy ∧ s.enc.mode = .win ∧ encRow (esel w) = some row then
    acceptEnc s (keepRest (tokenAction s.build s.enc row w).1 (tokenAction s.build s.enc row w).2)
  else notAccept s

/-- E.RUN (R163). -/
def execERun (w0 w1 w2 : Byte) (s : State) : Result := execToken .run [w0, w1, w2] s

/-- E.APAIR (R165). -/
def execEApair (w0 w1 : Byte) (w2 : Option Byte) (s : State) : Result := execToken .apair (w0 :: w1 :: w2.toList) s

/-- E.TRIPLE (R166). -/
def execETriple (w0 w1 w2 : Byte) (s : State) : Result := execToken .triple [w0, w1, w2] s

/-- E.SINGLE (R167). -/
def execESingle (w0 : Byte) (w1 : Option Byte) (s : State) : Result := execToken .single (w0 :: w1.toList) s

/-- ENC.PUSH (R169); not accepted outside BUSY (R246). -/
def execEncPush (x : Byte) (s : State) : Result :=
  if s.enc.phase = .busy then acceptEnc s (pushByte s.build s.enc x) else notAccept s

/-- ENC.END, its DATA ignored (R168); not accepted outside BUSY (R246). -/
def execEncEnd (_data : Byte) (s : State) : Result :=
  if s.enc.phase = .busy then acceptEnc s (endInput s.build s.enc) else notAccept s

/-- ENC.START: always accepted, without effect while BUSY; the reserved bits are ignored (R45, R241, R242). -/
def execEncStart (_reserved : BitVec 31) (s : State) : Result := acceptEnc s (encStartOp s.enc)

end Sys2Proof.Machine
end

