-- ==== Sys2Proof/Machine/HostPort.lean ====
section
/-! DEFINITION. The register port and the reset input (spec/43_host_interface.md R244, R245;
spec/70_reset_and_hazards.md R300). -/

namespace Sys2Proof.Machine

/-- RDREG n: RDATA is the view of register `n`; WDATA is ignored (R90, R244). -/
def execRdreg (n : BitVec 4) (_wdata : HostWord) (s : State) : Result := answer s (.rdata (view s n))

/-- WRREG n, v: a START where it writes bit 0 of a CTRL register, and else no effect (R245). -/
def execWrreg (n : BitVec 4) (v : HostWord) (s : State) : Result :=
  if n = 0#4 ∧ v.getLsbD 0 = true then acceptEnc s (encStartOp s.enc)
  else if n = 4#4 ∧ v.getLsbD 0 = true then acceptDec s (decStartOp s.dec (cmodeOf (v.extractLsb' 1 1)))
  else answer s .accepted

/-- RESET: every register takes its reset value and both streams become empty; the constants, the build and the
host's own program are not registers of the block (R22, R300; log entry 14). -/
def execReset (s : State) : Result := .next { s with enc := Enc.reset, dec := Dec.reset, resp := .accepted }

end Sys2Proof.Machine
end

