-- ==== Sys2Proof/Machine/Prim.lean ====
section
/-! DEFINITION. The PRIM unit (spec/40_primitives.md). Each evaluation is a pure function of FSEL, A, B, C and the
build's LB_SET; the range check of R131 stands in front of the helper of R128. -/

namespace Sys2Proof.Machine

/-- RERR = 0 with the named results; a result the rule does not name is 0 (R122). -/
def primOk (r0 : Scalar) (r1 : Scalar := 0) (r2 : Scalar := 0) : PrimResult := ⟨r0, r1, r2, .ok⟩

/-- RangeError: zero results and RERR = 1 (R122, R271). -/
def primRange : PrimResult := ⟨0, 0, 0, .range⟩

/-- ILLEGAL function: zero results and RERR = 2 (R138, R272). -/
def primIllegal : PrimResult := ⟨0, 0, 0, .illegal⟩

/-- The membership test (R123). -/
def primClassResult (lb : List Scalar) (a : Scalar) : PrimResult := primOk ((cls lb a).setWidth 21)

/-- Byte to U8 scalar (R124). -/
def primB2u8Result (a : Scalar) : PrimResult :=
  if 256#21 ≤ a then primRange else primOk (toU8 (a.setWidth 8))

/-- U8 scalar to byte (R125). -/
def primU82bResult (lb : List Scalar) (a : Scalar) : PrimResult :=
  if inU8 lb a then primOk ((fromU8 a).setWidth 21) else primRange

/-- 12-bit integer to U12 scalar (R126). -/
def primN2u12Result (a : Scalar) : PrimResult :=
  if 4096#21 ≤ a then primRange else primOk (toU12 (a.setWidth 12))

/-- U12 scalar to 12-bit integer (R127). -/
def primU122nResult (lb : List Scalar) (a : Scalar) : PrimResult :=
  if inU12 lb a then primOk ((fromU12 a).setWidth 21) else primRange

/-- Three bytes to two 12-bit integers (R132). -/
def primTpackResult (a b c : Scalar) : PrimResult :=
  if 256#21 ≤ a ∨ 256#21 ≤ b ∨ 256#21 ≤ c then primRange
  else
    let hl := tpack (a.setWidth 8) (b.setWidth 8) (c.setWidth 8)
    primOk (hl.1.setWidth 21) (hl.2.setWidth 21)

/-- Two 12-bit integers to three bytes (R133). -/
def primTunpackResult (a b : Scalar) : PrimResult :=
  if 4096#21 ≤ a ∨ 4096#21 ≤ b then primRange
  else
    let t := tunpack (a.setWidth 12) (b.setWidth 12)
    primOk (t.1.setWidth 21) (t.2.1.setWidth 21) (t.2.2.setWidth 21)

/-- Two 7-bit values to one U12a scalar (R134). -/
def primApackResult (a b : Scalar) : PrimResult :=
  if 128#21 ≤ a ∨ 128#21 ≤ b then primRange else primOk (apack (a.setWidth 7) (b.setWidth 7))

/-- One U12a scalar to two 7-bit values (R135). -/
def primAunpackResult (lb : List Scalar) (a : Scalar) : PrimResult :=
  if inU12a lb a then primOk ((aunpack a).1.setWidth 21) ((aunpack a).2.setWidth 21) else primRange

/-- Run descriptor to its two scalars (R136). -/
def primRpackResult (a b : Scalar) : PrimResult :=
  if 256#21 ≤ a ∨ 4096#21 ≤ b then primRange else primOk (toU8 (a.setWidth 8)) (toU12 (b.setWidth 12))

/-- A run token's two scalars to its descriptor (R137). -/
def primRunpackResult (lb : List Scalar) (a b : Scalar) : PrimResult :=
  if inU8 lb a && inU12 lb b then primOk ((fromU8 a).setWidth 21) ((fromU12 b).setWidth 21) else primRange

/-! ### The thirteen rows (R247). An operand the rule does not name is ignored (R122). -/

/-- PRIM.CLASS (R123). -/
def execPrimClass (a _b _c : Scalar) (s : State) : Result := answer s (.prim (primClassResult s.build.lbSet a))

/-- PRIM.B2U8 (R124). -/
def execPrimB2u8 (a _b _c : Scalar) (s : State) : Result := answer s (.prim (primB2u8Result a))

/-- PRIM.U82B (R125). -/
def execPrimU82b (a _b _c : Scalar) (s : State) : Result := answer s (.prim (primU82bResult s.build.lbSet a))

/-- PRIM.N2U12 (R126). -/
def execPrimN2u12 (a _b _c : Scalar) (s : State) : Result := answer s (.prim (primN2u12Result a))

/-- PRIM.U122N (R127). -/
def execPrimU122n (a _b _c : Scalar) (s : State) : Result := answer s (.prim (primU122nResult s.build.lbSet a))

/-- PRIM.TPACK (R132). -/
def execPrimTpack (a b c : Scalar) (s : State) : Result := answer s (.prim (primTpackResult a b c))

/-- PRIM.TUNPACK (R133). -/
def execPrimTunpack (a b _c : Scalar) (s : State) : Result := answer s (.prim (primTunpackResult a b))

/-- PRIM.APACK (R134). -/
def execPrimApack (a b _c : Scalar) (s : State) : Result := answer s (.prim (primApackResult a b))

/-- PRIM.AUNPACK (R135). -/
def execPrimAunpack (a _b _c : Scalar) (s : State) : Result := answer s (.prim (primAunpackResult s.build.lbSet a))

/-- PRIM.RPACK (R136). -/
def execPrimRpack (a b _c : Scalar) (s : State) : Result := answer s (.prim (primRpackResult a b))

/-- PRIM.RUNPACK (R137). -/
def execPrimRunpack (a b _c : Scalar) (s : State) : Result := answer s (.prim (primRunpackResult s.build.lbSet a b))

/-- PRIM with FSEL 0xB: ILLEGAL whatever the operands are (R138). -/
def execPrimReservedB (_a _b _c : Scalar) (s : State) : Result := answer s (.prim primIllegal)

/-- PRIM with FSEL 0xC to 0xF: ILLEGAL whatever the operands are (R138). -/
def execPrimReservedCF (_fsel : BitVec 2) (_a _b _c : Scalar) (s : State) : Result := answer s (.prim primIllegal)

end Sys2Proof.Machine
end

