-- ==== Sys2Proof/Machine/Dispatch.lean ====
section
/-! DEFINITION. One arm for each row of spec/opcode_table.json. -/

namespace Sys2Proof.Machine

def exec (i : Instr) (s : State) : Host.Outcome State Fault Refusal :=
  match i with
  | .primClass a b c => Sys2Proof.Machine.execPrimClass a b c s
  | .primB2u8 a b c => Sys2Proof.Machine.execPrimB2u8 a b c s
  | .primU82b a b c => Sys2Proof.Machine.execPrimU82b a b c s
  | .primN2u12 a b c => Sys2Proof.Machine.execPrimN2u12 a b c s
  | .primU122n a b c => Sys2Proof.Machine.execPrimU122n a b c s
  | .primTpack a b c => Sys2Proof.Machine.execPrimTpack a b c s
  | .primTunpack a b c => Sys2Proof.Machine.execPrimTunpack a b c s
  | .primApack a b c => Sys2Proof.Machine.execPrimApack a b c s
  | .primAunpack a b c => Sys2Proof.Machine.execPrimAunpack a b c s
  | .primRpack a b c => Sys2Proof.Machine.execPrimRpack a b c s
  | .primRunpack a b c => Sys2Proof.Machine.execPrimRunpack a b c s
  | .primReservedB a b c => Sys2Proof.Machine.execPrimReservedB a b c s
  | .primReservedCF fsel a b c => Sys2Proof.Machine.execPrimReservedCF fsel a b c s
  | .eRun w0 w1 w2 => Sys2Proof.Machine.execERun w0 w1 w2 s
  | .eApair w0 w1 w2 => Sys2Proof.Machine.execEApair w0 w1 w2 s
  | .eTriple w0 w1 w2 => Sys2Proof.Machine.execETriple w0 w1 w2 s
  | .eSingle w0 w1 => Sys2Proof.Machine.execESingle w0 w1 s
  | .dSkipLb x => Sys2Proof.Machine.execDSkipLb x s
  | .dApair hasNext cls1 k x => Sys2Proof.Machine.execDApair hasNext cls1 k x s
  | .dTriple x => Sys2Proof.Machine.execDTriple x s
  | .dRun x => Sys2Proof.Machine.execDRun x s
  | .dSs x => Sys2Proof.Machine.execDSs x s
  | .dLast cls1 => Sys2Proof.Machine.execDLast cls1 s
  | .dErrPair cls1 cls0 x => Sys2Proof.Machine.execDErrPair cls1 cls0 x s
  | .dErrLone cls1 cls0 => Sys2Proof.Machine.execDErrLone cls1 cls0 s
  | .encPush x => Sys2Proof.Machine.execEncPush x s
  | .encEnd data => Sys2Proof.Machine.execEncEnd data s
  | .decPush x => Sys2Proof.Machine.execDecPush x s
  | .decEnd data => Sys2Proof.Machine.execDecEnd data s
  | .encStart reserved => Sys2Proof.Machine.execEncStart reserved s
  | .decStart cmode reserved => Sys2Proof.Machine.execDecStart cmode reserved s
  | .wrreg n v => Sys2Proof.Machine.execWrreg n v s
  | .rdreg n wdata => Sys2Proof.Machine.execRdreg n wdata s
  | .reset => Sys2Proof.Machine.execReset s

end Sys2Proof.Machine
end

