-- ==== Sys2Proof/Machine/Step.lean ====
section
/-! DEFINITION. One step of the machine: the host's next action, decoded and performed (spec/00_scope.md R13). -/

namespace Sys2Proof.Machine

/-- One step. A build that is not UBC-1 is refused (R305, R306). Without an action of the host's the block takes no
step and every register keeps its value (R287, R302; log entry 2). -/
def step (s : State) : Host.Outcome State Fault Refusal :=
  if buildValid s.build then
    match fetch s with
    | none => .next s
    | some (b, s') =>
      match decode b with
      | .ok i => holdIfNotAccepted b (exec i s')
      | .error e => .refused (.noAction e)
  else .refused .notUbc1

/-- `s` with an opcode table word as the host's next action (log entries 1, 8). -/
def State.withFetchWord (s : State) (nbits w : Nat) : State :=
  match tableBeat nbits w with
  | some b => loadNext s b
  | none => s

end Sys2Proof.Machine
end

