-- ==== Sys2Proof/Machine/Codec.lean ====
section
/-! DEFINITION. The normative batch functions (spec/41_encoder.md R160, spec/42_decoder.md R200), to which R172 and
R216 hold the two FSMs, and the host programs of spec/30_encoding.md R98. -/

namespace Sys2Proof.Machine

/-- How many of the leading bytes equal `b` (R160 step 1). -/
def runLength (b : Byte) : List Byte → Nat
  | [] => 0
  | x :: xs => if x = b then runLength b xs + 1 else 0

/-- The tokens of `bytes`, at most `fuel` of them (R160 steps 1-5; the sequence from the scan position on stands for
the index `i`). -/
def encodeTokens : Nat → List Byte → List Scalar
  | 0, _ => []
  | _ + 1, [] => []
  | fuel + 1, w0 :: rest =>
    let r := 1 + runLength w0 rest
    if minRun ≤ r then
      toU8 w0 :: toU12 (BitVec.ofNat 12 (min r maxRun)) :: encodeTokens fuel (rest.drop (min r maxRun - 1))
    else
      match rest with
      | [] => [toU8 w0]
      | [w1] => if isAscii w0 && isAscii w1 then [apackBytes w0 w1] else toU8 w0 :: encodeTokens fuel [w1]
      | w1 :: w2 :: rest2 =>
        if isAscii w0 && isAscii w1 then apackBytes w0 w1 :: encodeTokens fuel (w2 :: rest2)
        else toU12 (tpack w0 w1 w2).1 :: toU12 (tpack w0 w1 w2).2 :: encodeTokens fuel rest2

/-- `encode(bytes)` (R160). -/
def encodeBytes (bytes : List Byte) : List Scalar := encodeTokens bytes.length bytes

/-- `UnclassifiableScalarPairError(kind, index, selector)` (R200). -/
structure DecodeFail where
  kind : ErrKind
  index : Nat
  sel : BitVec 7
deriving DecidableEq, Repr

/-- The loop of R200 over the stripped input from index `i` on: the bytes of the units decoded, and the failure that
ended it, if any. -/
def decodeUnits (lb : List Scalar) (i : Nat) : List Scalar → List Byte × Option DecodeFail
  | [] => ([], none)
  | [u] =>
    if inU12a lb u then (aunpackBytes u, none)
    else if inU8 lb u then ([fromU8 u], none)
    else ([], some ⟨.lone, i, selWord 0#1 0#3 (cls lb u)⟩)
  | u1 :: u2 :: rest =>
    if inU12a lb u1 then
      let r := decodeUnits lb (i + 1) (u2 :: rest)
      (aunpackBytes u1 ++ r.1, r.2)
    else if inU12 lb u1 && inU12 lb u2 then
      let t := tunpack (fromU12 u1) (fromU12 u2)
      let r := decodeUnits lb (i + 2) rest
      ([t.1, t.2.1, t.2.2] ++ r.1, r.2)
    else if inU8 lb u1 && inU12 lb u2 then
      let r := decodeUnits lb (i + 2) rest
      (List.replicate (fromU12 u2).toNat (fromU8 u1) ++ r.1, r.2)
    else if inU8 lb u1 && inU8 lb u2 then
      let r := decodeUnits lb (i + 2) rest
      ([fromU8 u1, fromU8 u2] ++ r.1, r.2)
    else ([], some ⟨.pair, i, selWord 1#1 (cls lb u2) (cls lb u1)⟩)

/-- Every line break is stripped first (R200). -/
def stripLineBreaks (lb : List Scalar) (scalars : List Scalar) : List Scalar :=
  scalars.filter (fun s => !inLB lb s)

/-- `decode(scalars)`: the bytes, or the failure (R200). -/
def decodeScalars (lb : List Scalar) (scalars : List Scalar) : Except DecodeFail (List Byte) :=
  match decodeUnits lb 0 (stripLineBreaks lb scalars) with
  | (out, none) => .ok out
  | (_, some f) => .error f

/-! ### Host programs (R97, R98) -/

/-- `ENC.PUSHSEQ [b0, ..., bk]`. -/
def encPushSeq (bytes : List Byte) : List Beat := bytes.map (fun x => encode (.encPush x))

/-- `ENC.TXN [b0, ..., bk]`. -/
def encTxn (bytes : List Byte) : List Beat := encode (.encStart 0#31) :: (encPushSeq bytes ++ [encode (.encEnd 0#8)])

/-- `DEC.PUSHSEQ [s0, ..., sk]`. -/
def decPushSeq (scalars : List Scalar) : List Beat := scalars.map (fun x => encode (.decPush x))

/-- `DEC.START m`, the pushes, and `DEC.END`: `DEC.TXN` for EMIT. -/
def decTxn (m : CMode) (scalars : List Scalar) : List Beat :=
  encode (.decStart m.code 0#30) :: (decPushSeq scalars ++ [encode (.decEnd 0#21)])

/-- `DEC.SIZE [s0, ..., sk]`: a COUNT transaction, then the status and the count are read. -/
def decSize (scalars : List Scalar) : List Beat :=
  decTxn .count scalars ++ [encode (.rdreg 5#4 0#32), encode (.rdreg 7#4 0#32)]

/-- `WAITDONE ENC`: one read of ENC_STATUS suffices (R249). -/
def waitDoneEnc : List Beat := [encode (.rdreg 1#4 0#32)]

/-- `WAITDONE DEC`: one read of DEC_STATUS suffices (R249). -/
def waitDoneDec : List Beat := [encode (.rdreg 5#4 0#32)]

end Sys2Proof.Machine
end

