-- ==== Sys2Proof/Safety.lean ====
section
/-! DEFINITION. The terms in which statements speak of the machine: the invariants of the two units
(spec/10_state.md R32, R42), what a host can observe (spec/43_host_interface.md R254), which unit an action belongs
to (R20, R240), and when two states differ only in what no rule reads or only in their counters. -/

namespace Sys2Proof.Machine

/-! ### Invariants -/

/-- What holds of ENC between steps: R32 (a)-(c), the classes of R171, and the counters of R29-R31. -/
abbrev EncInv (b : Build) (e : Enc) : Prop :=
  (e.mode = .run → e.wcnt = 0#2 ∧ 3 ≤ e.rc.toNat ∧ e.rc.toNat ≤ 4095) ∧
  (e.mode = .win → e.wcnt.toNat ≤ 2) ∧
  (e.phase ≠ .busy → e.mode = .win ∧ e.wcnt = 0#2) ∧
  e.out.all inRange = true ∧
  e.inCount.toNat < 2 ^ b.cntW ∧
  e.outCount.toNat = e.out.length % 2 ^ b.cntW ∧
  (e.ovf = false → e.out.length < 2 ^ b.cntW)

/-- What holds of DEC between steps: R42 (a)-(d), the pending register of R34, the error fields of R38-R40, R277, and
the counters and streams of R35-R37. -/
abbrev DecInv (b : Build) (d : Dec) : Prop :=
  (d.pv = true → d.pc = cls b.lbSet d.p ∧ (d.pc = 0#3 ∨ d.pc = 1#3 ∨ d.pc = 2#3) ∧ d.pidx.toNat < 2 ^ b.cntW ∧
    d.idx = countUp b.cntW d.pidx) ∧
  (d.phase ≠ .busy → d.pv = false) ∧
  (d.err = true ↔ d.errKind ≠ .none) ∧
  (d.phase = .drain → d.err = true) ∧
  (d.err = true → d.phase = .drain ∨ d.phase = .done) ∧
  (d.err = false → d.errIdx = 0#32 ∧ d.errSel = 0#7) ∧
  d.idx.toNat < 2 ^ b.cntW ∧
  d.outCount.toNat < 2 ^ b.cntW ∧
  (d.cmode = .count → d.out = []) ∧
  (d.cmode = .emit → d.outCount.toNat = d.out.length % 2 ^ b.cntW)

/-- The invariant of the machine: a UBC-1 build, and both units as above. -/
abbrev Inv (s : State) : Prop := buildValid s.build = true ∧ EncInv s.build s.enc ∧ DecInv s.build s.dec

/-! ### Observation -/

/-- What a model exposes after a step (R254). -/
structure Observation where
  /-- The views of the host registers 0 to 15. -/
  regs : List HostWord
  /-- ENC_OUT. -/
  encOut : List Scalar
  /-- DEC_OUT. -/
  decOut : List Byte
  /-- The result of the last step, if it was a PRIM evaluation. -/
  prim : Option PrimResult
deriving DecidableEq, Repr

/-- The observation of a state (R254). -/
def observe (s : State) : Observation :=
  { regs := (List.range 16).map (fun n => view s (BitVec.ofNat 4 n))
    encOut := s.enc.out
    decOut := s.dec.out
    prim := match s.resp with
      | .prim r => some r
      | _ => none }

/-! ### Units -/

/-- The unit an action belongs to (R20, R240). -/
inductive UbcUnit where
  /-- The PRIM port. -/
  | prim
  /-- The encoder. -/
  | enc
  /-- The decoder. -/
  | dec
  /-- The register port and the reset input, which reach both streaming units. -/
  | host
deriving DecidableEq, Repr

/-- The port an action's encoding travels on (R61, R83-R90). -/
def portOf : Instr → Port
  | .primClass _ _ _ | .primB2u8 _ _ _ | .primU82b _ _ _ | .primN2u12 _ _ _ | .primU122n _ _ _ | .primTpack _ _ _
  | .primTunpack _ _ _ | .primApack _ _ _ | .primAunpack _ _ _ | .primRpack _ _ _ | .primRunpack _ _ _
  | .primReservedB _ _ _ | .primReservedCF _ _ _ _ => .prim
  | .eRun _ _ _ | .eApair _ _ _ | .eTriple _ _ _ | .eSingle _ _ => .encSel
  | .dSkipLb _ => .decFilter
  | .dApair _ _ _ _ | .dTriple _ | .dRun _ | .dSs _ | .dLast _ | .dErrPair _ _ _ | .dErrLone _ _ => .decSel
  | .encPush _ | .encEnd _ => .encIn
  | .decPush _ | .decEnd _ => .decIn
  | .encStart _ | .decStart _ _ | .wrreg _ _ | .rdreg _ _ => .reg
  | .reset => .rst

/-- The unit whose registers an action may read or write (R20, R240). -/
def unitOf : Instr → UbcUnit
  | .encStart _ => .enc
  | .decStart _ _ => .dec
  | i =>
    match portOf i with
    | .prim => .prim
    | .encSel | .encIn => .enc
    | .decSel | .decFilter | .decIn => .dec
    | .reg | .rst => .host

/-- The action starts an ENC transaction if the unit lets it (R242, R245). -/
def startsEnc : Instr → Bool
  | .encStart _ => true
  | .wrreg n v => n == 0#4 && v.getLsbD 0
  | _ => false

/-- The action starts a DEC transaction if the unit lets it (R243, R245). -/
def startsDec : Instr → Bool
  | .decStart _ _ => true
  | .wrreg n v => n == 4#4 && v.getLsbD 0
  | _ => false

/-! ### States that differ only in what no rule reads -/

/-- ENC alike but for the window registers at or beyond WCNT and the run register in WIN mode (R27, R28, I7). -/
abbrev EncSameVisible (e f : Enc) : Prop :=
  e.phase = f.phase ∧ e.mode = f.mode ∧ e.wcnt = f.wcnt ∧
  (1 ≤ e.wcnt.toNat → e.w0 = f.w0) ∧ (2 ≤ e.wcnt.toNat → e.w1 = f.w1) ∧
  (e.mode = .run → e.rb = f.rb ∧ e.rc = f.rc) ∧
  e.inCount = f.inCount ∧ e.outCount = f.outCount ∧ e.ovf = f.ovf ∧ e.out = f.out

/-- DEC alike but for the pending register while PV = 0 (R34, I7). -/
abbrev DecSameVisible (d f : Dec) : Prop :=
  d.phase = f.phase ∧ d.cmode = f.cmode ∧ d.pv = f.pv ∧
  (d.pv = true → d.p = f.p ∧ d.pc = f.pc ∧ d.pidx = f.pidx) ∧
  d.idx = f.idx ∧ d.outCount = f.outCount ∧ d.err = f.err ∧ d.errKind = f.errKind ∧ d.errIdx = f.errIdx ∧
  d.errSel = f.errSel ∧ d.ovf = f.ovf ∧ d.out = f.out

/-- States alike but for register contents the spec leaves open. -/
abbrev SameVisible (s t : State) : Prop :=
  s.build = t.build ∧ EncSameVisible s.enc t.enc ∧ DecSameVisible s.dec t.dec ∧ s.resp = t.resp ∧
  s.inputs = t.inputs ∧ s.held = t.held

/-! ### States that differ only in their counters -/

/-- ENC alike but for IN_COUNT, OUT_COUNT and OVF. -/
abbrev EncSameButCounters (e f : Enc) : Prop :=
  e.phase = f.phase ∧ e.mode = f.mode ∧ e.wcnt = f.wcnt ∧ e.w0 = f.w0 ∧ e.w1 = f.w1 ∧ e.rb = f.rb ∧ e.rc = f.rc ∧
  e.out = f.out

/-- DEC alike but for IDX, OUT_COUNT, OVF and the indices PIDX and ERR_IDX copied from IDX. -/
abbrev DecSameButCounters (d f : Dec) : Prop :=
  d.phase = f.phase ∧ d.cmode = f.cmode ∧ d.pv = f.pv ∧ d.p = f.p ∧ d.pc = f.pc ∧ d.err = f.err ∧
  d.errKind = f.errKind ∧ d.errSel = f.errSel ∧ d.out = f.out

/-- The same answer, or a register read each, which may have read a counter. -/
def sameAnswer : Response → Response → Bool
  | .rdata _, .rdata _ => true
  | q, r => q == r

/-- States alike but for CNT_W and what the counters hold. -/
abbrev SameButCounters (s t : State) : Prop :=
  s.build.lbSet = t.build.lbSet ∧ EncSameButCounters s.enc t.enc ∧ DecSameButCounters s.dec t.dec ∧
  sameAnswer s.resp t.resp = true ∧ s.inputs = t.inputs ∧ s.held = t.held

end Sys2Proof.Machine
end

