-- ==== Sys2Proof/Certificates/Slice0/Obligations.lean ====
section
/-! DEFINITION. The statements for the provers, in the order of the spec's files: encodings, PRIM, ENC, DEC, the host
interface, and the rules of the whole block. Where a statement gives a whole next state, a register whose content the spec
leaves open has what the rule's pseudocode leaves in it (log entry 10). -/

open Sys2Proof Sys2Proof.Machine

/-! ### Encodings -/

/-- Decoding the encoding of a well-formed action gives that action, with every operand (30_encoding.md R83-R90). -/
def Obligations.DecodeInvertsEncode : Prop :=
  ∀ i : Instr, i.WellFormed → decode (encode i) = .ok i

/-- Every word a host can send has one meaning: what it decodes to is well formed and encodes to that word
(30_encoding.md R86-R90). -/
def Obligations.EncodeInvertsHostDecode : Prop :=
  ∀ (b : Beat) (i : Instr), b.isHost = true → decode b = .ok i → encode i = b ∧ i.WellFormed

/-- Words written out from the encoding tables decode to the action they stand for (30_encoding.md R97,
95_test_vectors.md 3.1-3.4). -/
def Obligations.SampleWordsDecode : Prop :=
  decode (.prim 0x28002AC0019A000EF#67) = .ok (.primTpack 0xAB#21 0xCD#21 0xEF#21) ∧
  decode (.prim 0x58000040000400003#67) = .ok (.primReservedB 1#21 2#21 3#21) ∧
  decode (.reg 0x1000000001#37) = .ok (.encStart 0#31) ∧
  decode (.reg 0x1400000003#37) = .ok (.decStart 1#1 0#30) ∧
  decode (.reg 0x0500000000#37) = .ok (.rdreg 5#4 0#32) ∧
  decode (.encIn 0x048#9) = .ok (.encPush 0x48#8) ∧
  decode (.encIn 0x100#9) = .ok (.encEnd 0#8) ∧
  decode (.decIn 0x009029#22) = .ok (.decPush 0x9029#21) ∧
  decode (.decIn 0x200000#22) = .ok (.decEnd 0#21) ∧
  decode (.decSel 0b1010010#7 0x4E00#21) = .ok (.dTriple 0x4E00#21) ∧
  decode (.encSel 0b11100#5 0x80#8 0x80#8 0x80#8) = .ok (.eRun 0x80#8 0x80#8 0x80#8)

/-- The class of a scalar is the code of the interval it lies in: 1 U8, 2 U12, 4 to 7 the U12a blocks; outside the ranges
3 for a line break and 0 for anything else (30_encoding.md R81, R82; 40_primitives.md R120). -/
def Obligations.ClassesFollowTheRanges : Prop :=
  ∀ (lb : List Scalar) (s : Scalar),
    (cls lb s = 1#3 ↔ 0x0400 ≤ s.toNat ∧ s.toNat ≤ 0x04FF) ∧
    (cls lb s = 2#3 ↔ 0x4E00 ≤ s.toNat ∧ s.toNat ≤ 0x5DFF) ∧
    (∀ k < 4, cls lb s = BitVec.ofNat 3 (4 + k) ↔ 0x5E00 + 4096 * k ≤ s.toNat ∧ s.toNat < 0x6E00 + 4096 * k) ∧
    (cls lb s = 3#3 ↔
      s ∈ lb ∧ ¬ (0x0400 ≤ s.toNat ∧ s.toNat ≤ 0x04FF) ∧ ¬ (0x4E00 ≤ s.toNat ∧ s.toNat ≤ 0x9DFF)) ∧
    (cls lb s = 0#3 ↔
      s ∉ lb ∧ ¬ (0x0400 ≤ s.toNat ∧ s.toNat ≤ 0x04FF) ∧ ¬ (0x4E00 ≤ s.toNat ∧ s.toNat ≤ 0x9DFF))

/-- The mask form of the six ranges gives the same classes as the intervals (30_encoding.md R96); `k` is 0 for U12 and
1 to 4 for the U12a blocks. -/
def Obligations.RangeMasksMatchTheRanges : Prop :=
  ∀ s : Scalar,
    (s &&& 0x1FFF00#21 = 0x000400#21 ↔ cls [] s = 1#3) ∧
    ∀ k < 5,
      (s &&& 0x1FFE00#21 = BitVec.ofNat 21 (0x4E00 + 0x1000 * k) ∨
        s &&& 0x1FF800#21 = BitVec.ofNat 21 (0x5000 + 0x1000 * k) ∨
        s &&& 0x1FFC00#21 = BitVec.ofNat 21 (0x5800 + 0x1000 * k) ∨
        s &&& 0x1FFE00#21 = BitVec.ofNat 21 (0x5C00 + 0x1000 * k)) ↔
      cls [] s = if k = 0 then 2#3 else BitVec.ofNat 3 (3 + k)

/-- The encoder's table selects run, then ascii pair, then triple, then single, for every window of one to three bytes
(30_encoding.md R83). -/
def Obligations.EncoderSelectorKeepsThePriority : Prop :=
  (∀ w0 w1 w2 : Byte, encRow (esel [w0, w1, w2]) =
    some (if w0 = w1 ∧ w1 = w2 then .run else if w0.toNat < 128 ∧ w1.toNat < 128 then .apair else .triple)) ∧
  (∀ w0 w1 : Byte, encRow (esel [w0, w1]) = some (if w0.toNat < 128 ∧ w1.toNat < 128 then .apair else .single)) ∧
  (∀ w0 : Byte, encRow (esel [w0]) = some .single)

/-- The decoder's table is total and selects as R84 orders its rows (30_encoding.md R84). -/
def Obligations.DecoderSelectorIsTotal : Prop :=
  ∀ (h : BitVec 1) (c1 c0 : ClassCode), decRow (selWord h c1 c0) =
    if c0 = 4#3 ∨ c0 = 5#3 ∨ c0 = 6#3 ∨ c0 = 7#3 then .apair
    else if h = 1#1 ∧ c1 = 2#3 ∧ c0 = 2#3 then .triple
    else if h = 1#1 ∧ c1 = 2#3 ∧ c0 = 1#3 then .run
    else if h = 1#1 ∧ c1 = 1#3 ∧ c0 = 1#3 then .ss
    else if h = 0#1 ∧ c0 = 1#3 then .last
    else if h = 1#1 then .errPair
    else .errLone

/-! ### PRIM -/

/-- PRIM.CLASS, FSEL 0x0, answers the class of A and never fails (40_primitives.md R123). -/
def Obligations.PrimClassAnswersTheClass : Prop :=
  ∀ (a b c : Scalar) (s : State),
    encode (.primClass a b c) = .prim (0x0#4 ++ a ++ b ++ c) ∧
    exec (.primClass a b c) s =
      .next { s with resp := .prim ⟨BitVec.ofNat 21 (cls s.build.lbSet a).toNat, 0#21, 0#21, .ok⟩ }

/-- The four range conversions add or take away a range base, and give RangeError exactly outside their domains
(40_primitives.md R124-R127, R131). -/
def Obligations.PrimConversionsMoveARangeBase : Prop :=
  ∀ (a b c : Scalar) (s : State),
    encode (.primB2u8 a b c) = .prim (0x1#4 ++ a ++ b ++ c) ∧
    encode (.primU82b a b c) = .prim (0x2#4 ++ a ++ b ++ c) ∧
    encode (.primN2u12 a b c) = .prim (0x3#4 ++ a ++ b ++ c) ∧
    encode (.primU122n a b c) = .prim (0x4#4 ++ a ++ b ++ c) ∧
    exec (.primB2u8 a b c) s = .next { s with
      resp := .prim <| if a.toNat < 256 then ⟨BitVec.ofNat 21 (0x0400 + a.toNat), 0#21, 0#21, .ok⟩
        else ⟨0#21, 0#21, 0#21, .range⟩ } ∧
    exec (.primU82b a b c) s = .next { s with
      resp := .prim <| if 0x0400 ≤ a.toNat ∧ a.toNat ≤ 0x04FF then ⟨BitVec.ofNat 21 (a.toNat - 0x0400), 0#21, 0#21, .ok⟩
        else ⟨0#21, 0#21, 0#21, .range⟩ } ∧
    exec (.primN2u12 a b c) s = .next { s with
      resp := .prim <| if a.toNat < 4096 then ⟨BitVec.ofNat 21 (0x4E00 + a.toNat), 0#21, 0#21, .ok⟩
        else ⟨0#21, 0#21, 0#21, .range⟩ } ∧
    exec (.primU122n a b c) s = .next { s with
      resp := .prim <| if 0x4E00 ≤ a.toNat ∧ a.toNat ≤ 0x5DFF then ⟨BitVec.ofNat 21 (a.toNat - 0x4E00), 0#21, 0#21, .ok⟩
        else ⟨0#21, 0#21, 0#21, .range⟩ }

/-- TPACK and TUNPACK split and join the 24-bit group big-endian, and give RangeError exactly outside their domains
(40_primitives.md R131-R133). -/
def Obligations.PrimTriplesPackBigEndian : Prop :=
  ∀ (a b c : Scalar) (s : State),
    encode (.primTpack a b c) = .prim (0x5#4 ++ a ++ b ++ c) ∧
    encode (.primTunpack a b c) = .prim (0x6#4 ++ a ++ b ++ c) ∧
    exec (.primTpack a b c) s = .next { s with
      resp := .prim <| if a.toNat < 256 ∧ b.toNat < 256 ∧ c.toNat < 256 then
        ⟨BitVec.ofNat 21 ((a.toNat * 65536 + b.toNat * 256 + c.toNat) / 4096),
          BitVec.ofNat 21 ((a.toNat * 65536 + b.toNat * 256 + c.toNat) % 4096), 0#21, .ok⟩
        else ⟨0#21, 0#21, 0#21, .range⟩ } ∧
    exec (.primTunpack a b c) s = .next { s with
      resp := .prim <| if a.toNat < 4096 ∧ b.toNat < 4096 then
        ⟨BitVec.ofNat 21 ((a.toNat * 4096 + b.toNat) / 65536),
          BitVec.ofNat 21 ((a.toNat * 4096 + b.toNat) / 256 % 256),
          BitVec.ofNat 21 ((a.toNat * 4096 + b.toNat) % 256), .ok⟩
        else ⟨0#21, 0#21, 0#21, .range⟩ }

/-- APACK and AUNPACK select the block by the two high bits and place the low six bits of each value
(40_primitives.md R131, R134, R135). -/
def Obligations.PrimAsciiPairsPackByBlock : Prop :=
  ∀ (a b c : Scalar) (s : State),
    encode (.primApack a b c) = .prim (0x7#4 ++ a ++ b ++ c) ∧
    encode (.primAunpack a b c) = .prim (0x8#4 ++ a ++ b ++ c) ∧
    exec (.primApack a b c) s = .next { s with
      resp := .prim <| if a.toNat < 128 ∧ b.toNat < 128 then
        ⟨BitVec.ofNat 21 (0x5E00 + 0x1000 * (2 * (a.toNat / 64) + b.toNat / 64) + 64 * (a.toNat % 64) + b.toNat % 64),
          0#21, 0#21, .ok⟩
        else ⟨0#21, 0#21, 0#21, .range⟩ } ∧
    exec (.primAunpack a b c) s = .next { s with
      resp := .prim <| if 0x5E00 ≤ a.toNat ∧ a.toNat ≤ 0x9DFF then
        ⟨BitVec.ofNat 21 (64 * ((a.toNat - 0x5E00) / 8192) + (a.toNat - 0x5E00) / 64 % 64),
          BitVec.ofNat 21 (64 * ((a.toNat - 0x5E00) / 4096 % 2) + (a.toNat - 0x5E00) % 64), 0#21, .ok⟩
        else ⟨0#21, 0#21, 0#21, .range⟩ }

/-- RPACK and RUNPACK convert a run descriptor and its two scalars into each other, any length from 0 to 4095
(40_primitives.md R131, R136, R137). -/
def Obligations.PrimRunDescriptorsConvert : Prop :=
  ∀ (a b c : Scalar) (s : State),
    encode (.primRpack a b c) = .prim (0x9#4 ++ a ++ b ++ c) ∧
    encode (.primRunpack a b c) = .prim (0xA#4 ++ a ++ b ++ c) ∧
    exec (.primRpack a b c) s = .next { s with
      resp := .prim <| if a.toNat < 256 ∧ b.toNat < 4096 then
        ⟨BitVec.ofNat 21 (0x0400 + a.toNat), BitVec.ofNat 21 (0x4E00 + b.toNat), 0#21, .ok⟩
        else ⟨0#21, 0#21, 0#21, .range⟩ } ∧
    exec (.primRunpack a b c) s = .next { s with
      resp := .prim <| if (0x0400 ≤ a.toNat ∧ a.toNat ≤ 0x04FF) ∧ 0x4E00 ≤ b.toNat ∧ b.toNat ≤ 0x5DFF then
        ⟨BitVec.ofNat 21 (a.toNat - 0x0400), BitVec.ofNat 21 (b.toNat - 0x4E00), 0#21, .ok⟩
        else ⟨0#21, 0#21, 0#21, .range⟩ }

/-- A reserved FSEL, 0xB to 0xF, answers ILLEGAL with zero results whatever the operands are, and changes no register
(40_primitives.md R138). -/
def Obligations.PrimReservedIsIllegal : Prop :=
  ∀ (f : BitVec 2) (a b c : Scalar) (s : State),
    encode (.primReservedB a b c) = .prim (0xB#4 ++ a ++ b ++ c) ∧
    encode (.primReservedCF f a b c) = .prim (0b11#2 ++ f ++ a ++ b ++ c) ∧
    exec (.primReservedB a b c) s = .next { s with resp := .prim ⟨0#21, 0#21, 0#21, .illegal⟩ } ∧
    exec (.primReservedCF f a b c) s = .next { s with resp := .prim ⟨0#21, 0#21, 0#21, .illegal⟩ }

/-- Packing and unpacking undo each other on their whole domains (40_primitives.md R139). -/
def Obligations.PackingInverseLaws : Prop :=
  (∀ a b c : Byte, tunpack (tpack a b c).1 (tpack a b c).2 = (a, b, c)) ∧
  (∀ h l : BitVec 12, tpack (tunpack h l).1 (tunpack h l).2.1 (tunpack h l).2.2 = (h, l)) ∧
  (∀ i1 i2 : BitVec 7, aunpack (apack i1 i2) = (i1, i2)) ∧
  (∀ s : Scalar, 0x5E00 ≤ s.toNat → s.toNat ≤ 0x9DFF → apack (aunpack s).1 (aunpack s).2 = s) ∧
  (∀ b : Byte, fromU8 (toU8 b) = b) ∧
  (∀ n : BitVec 12, fromU12 (toU12 n) = n)

/-- A PRIM evaluation is one accepted step that changes no register; its result depends on the action and LB_SET alone,
and an error gives zero results (40_primitives.md R122; 10_state.md R58). -/
def Obligations.PrimEvaluationIsPure : Prop :=
  ∀ (i : Instr) (lb : List Scalar), unitOf i = .prim →
    ∃ r : PrimResult, (r.rerr ≠ .ok → r.r0 = 0#21 ∧ r.r1 = 0#21 ∧ r.r2 = 0#21) ∧
      ∀ s : State, s.build.lbSet = lb → exec i s = .next { s with resp := .prim r }

/-! ### ENC -/

/-- ENC.START opens a transaction, or is ignored while one runs; the reserved bits do not matter
(43_host_interface.md R242; 10_state.md R45). -/
def Obligations.EncStartOpensATransaction : Prop :=
  ∀ (reserved : BitVec 31) (s : State),
    encode (.encStart reserved) = .reg (1#1 ++ 0#4 ++ (reserved ++ 1#1)) ∧
    (s.enc.phase = .busy → exec (.encStart reserved) s = .next { s with resp := .accepted }) ∧
    (s.enc.phase ≠ .busy → exec (.encStart reserved) s = .next { s with
      enc := { s.enc with
        phase := .busy, mode := .win, wcnt := 0#2, rb := 0#8, rc := 0#12
        inCount := 0#32, outCount := 0#32, ovf := false, out := [] }
      resp := .accepted })

/-- ENC.PUSH into a window of no or one byte holds the byte and emits nothing (41_encoder.md R169). -/
def Obligations.EncPushFillsTheWindow : Prop :=
  ∀ (x : Byte) (s : State), s.enc.phase = .busy → s.enc.mode = .win →
    (s.enc.wcnt = 0#2 → exec (.encPush x) s = .next { s with
      enc := { s.enc with
        inCount := countUp s.build.cntW s.enc.inCount
        ovf := stickyOvf s.enc.ovf (countUp s.build.cntW s.enc.inCount)
        w0 := x, wcnt := 1#2 }
      resp := .accepted }) ∧
    (s.enc.wcnt = 1#2 → exec (.encPush x) s = .next { s with
      enc := { s.enc with
        inCount := countUp s.build.cntW s.enc.inCount
        ovf := stickyOvf s.enc.ovf (countUp s.build.cntW s.enc.inCount)
        w1 := x, wcnt := 2#2 }
      resp := .accepted })

/-- ENC.PUSH of the third byte counts it and then is the token row that the source's priority chooses
(41_encoder.md R162, R169), the row as log entry 7 performs it by itself. -/
def Obligations.EncPushDecidesAFullWindow : Prop :=
  ∀ (x : Byte) (s : State), s.enc.phase = .busy → s.enc.mode = .win → s.enc.wcnt = 2#2 →
    exec (.encPush x) s =
      if s.enc.w0 = s.enc.w1 ∧ s.enc.w1 = x then
        exec (.eRun s.enc.w0 s.enc.w1 x) { s with enc := countIn s.build s.enc }
      else if s.enc.w0.toNat < 128 ∧ s.enc.w1.toNat < 128 then
        exec (.eApair s.enc.w0 s.enc.w1 (some x)) { s with enc := countIn s.build s.enc }
      else exec (.eTriple s.enc.w0 s.enc.w1 x) { s with enc := countIn s.build s.enc }

/-- ENC.PUSH in RUN mode counts the byte, and grows the run, or closes it with its two scalars and starts a window
(41_encoder.md R164, R169). -/
def Obligations.EncPushExtendsOrClosesARun : Prop :=
  ∀ (x : Byte) (s : State), s.enc.phase = .busy → s.enc.mode = .run →
    exec (.encPush x) s = .next { s with
      enc :=
        if x = s.enc.rb ∧ s.enc.rc.toNat < 4095 then
          { countIn s.build s.enc with rc := BitVec.ofNat 12 (s.enc.rc.toNat + 1) }
        else
          { encEmit s.build (encEmit s.build (countIn s.build s.enc) (toU8 s.enc.rb)) (toU12 s.enc.rc) with
            mode := .win, w0 := x, wcnt := 1#2 }
      resp := .accepted }

/-- ENC.END emits the open run, or the ascii pair or the singles of the window, and ends in DONE
(41_encoder.md R167, R168). -/
def Obligations.EncEndFlushesWhatIsHeld : Prop :=
  ∀ (data : Byte) (s : State), s.enc.phase = .busy →
    encode (.encEnd data) = .encIn (1#1 ++ data) ∧
    (s.enc.mode = .run → exec (.encEnd data) s = .next { s with
      enc := { encEmit s.build (encEmit s.build s.enc (toU8 s.enc.rb)) (toU12 s.enc.rc) with
        mode := .win, wcnt := 0#2, phase := .done }
      resp := .accepted }) ∧
    (s.enc.mode = .win → s.enc.wcnt = 0#2 → exec (.encEnd data) s = .next { s with
      enc := { s.enc with phase := .done }, resp := .accepted }) ∧
    (s.enc.mode = .win → s.enc.wcnt = 1#2 → exec (.encEnd data) s = .next { s with
      enc := { encEmit s.build s.enc (toU8 s.enc.w0) with wcnt := 0#2, phase := .done }, resp := .accepted }) ∧
    (s.enc.mode = .win → s.enc.wcnt = 2#2 → exec (.encEnd data) s = .next { s with
      enc :=
        if s.enc.w0.toNat < 128 ∧ s.enc.w1.toNat < 128 then
          { encEmit s.build s.enc (apackBytes s.enc.w0 s.enc.w1) with wcnt := 0#2, phase := .done }
        else
          { encEmit s.build (encEmit s.build s.enc (toU8 s.enc.w0)) (toU8 s.enc.w1) with wcnt := 0#2, phase := .done }
      resp := .accepted })

/-- E.RUN, the row by itself (log entry 7), opens a run of three and emits nothing (41_encoder.md R163). -/
def Obligations.ERunOpensARun : Prop :=
  ∀ (w : Byte) (s : State), s.enc.phase = .busy → s.enc.mode = .win →
    exec (.eRun w w w) s = .next { s with
      enc := { s.enc with mode := .run, rb := w, rc := 3#12, wcnt := 0#2 }, resp := .accepted }

/-- E.APAIR, the row by itself (log entry 7), emits the U12a scalar of its two bytes and leaves a third byte as the
window (41_encoder.md R165). -/
def Obligations.EApairEmitsOneScalar : Prop :=
  ∀ (w0 w1 : Byte) (s : State), s.enc.phase = .busy → s.enc.mode = .win → w0.toNat < 128 → w1.toNat < 128 →
    let u : Scalar := BitVec.ofNat 21
      (0x5E00 + 0x1000 * (2 * (w0.toNat / 64) + w1.toNat / 64) + 64 * (w0.toNat % 64) + w1.toNat % 64)
    exec (.eApair w0 w1 none) s = .next { s with
      enc := { encEmit s.build s.enc u with wcnt := 0#2 }, resp := .accepted } ∧
    ∀ w2 : Byte, ¬ (w0 = w1 ∧ w1 = w2) → exec (.eApair w0 w1 (some w2)) s = .next { s with
      enc := { encEmit s.build s.enc u with wcnt := 1#2, w0 := w2 }, resp := .accepted }

/-- E.TRIPLE, the row by itself (log entry 7), emits the high and the low half of the 24-bit group and leaves the window
empty (41_encoder.md R166). -/
def Obligations.ETripleEmitsTwoScalars : Prop :=
  ∀ (w0 w1 w2 : Byte) (s : State), s.enc.phase = .busy → s.enc.mode = .win →
    ¬ (w0 = w1 ∧ w1 = w2) → ¬ (w0.toNat < 128 ∧ w1.toNat < 128) →
    let u : Scalar := BitVec.ofNat 21 (0x4E00 + (w0.toNat * 16 + w1.toNat / 16))
    let v : Scalar := BitVec.ofNat 21 (0x4E00 + (w1.toNat % 16 * 256 + w2.toNat))
    exec (.eTriple w0 w1 w2) s = .next { s with
      enc := { encEmit s.build (encEmit s.build s.enc u) v with wcnt := 0#2 }, resp := .accepted }

/-- E.SINGLE, the row by itself (log entry 7), emits the U8 scalar of its first byte and leaves a second byte as the
window (41_encoder.md R167). -/
def Obligations.ESingleEmitsOneScalar : Prop :=
  ∀ (w0 : Byte) (s : State), s.enc.phase = .busy → s.enc.mode = .win →
    let u : Scalar := BitVec.ofNat 21 (0x0400 + w0.toNat)
    exec (.eSingle w0 none) s = .next { s with
      enc := { encEmit s.build s.enc u with wcnt := 0#2 }, resp := .accepted } ∧
    ∀ w1 : Byte, ¬ (w0.toNat < 128 ∧ w1.toNat < 128) → exec (.eSingle w0 (some w1)) s = .next { s with
      enc := { encEmit s.build s.enc u with wcnt := 1#2, w0 := w1 }, resp := .accepted }

/-- ENC.START, the pushes of a byte sequence and ENC.END, run by the machine from any state in which no ENC transaction
runs, leave ENC_OUT = encode(bytes), the two counts, and DONE; nothing outside ENC changes but the host's own side
(41_encoder.md R172). -/
def Obligations.EncTransactionComputesEncode : Prop :=
  ∀ (s : State) (bytes : List Byte) (rest : List Beat), buildValid s.build = true → s.enc.phase ≠ .busy →
    s.inputs = encTxn bytes ++ rest →
    ∃ t : State, Sys2Proof.core.run (bytes.length + 2) s = .next t ∧
      t.enc.out = encodeBytes bytes ∧
      t.enc.inCount.toNat = bytes.length % 2 ^ s.build.cntW ∧
      t.enc.outCount.toNat = (encodeBytes bytes).length % 2 ^ s.build.cntW ∧
      t.enc.phase = .done ∧
      t.build = s.build ∧ t.dec = s.dec ∧ t.inputs = rest ∧ t.held = s.held

/-- encode never lengthens: no more scalars than bytes, and equally many only for at most two bytes, each a single
(41_encoder.md R174). -/
def Obligations.EncodeNeverLengthens : Prop :=
  ∀ bytes : List Byte, (encodeBytes bytes).length ≤ bytes.length ∧
    ((encodeBytes bytes).length = bytes.length → bytes.length ≤ 2 ∧ encodeBytes bytes = bytes.map toU8)

/-- A run of any length is cut into chunks of 4095; what is left of it starts afresh (41_encoder.md R160, R164,
R175 (c), (d)). -/
def Obligations.EncodeCutsLongRuns : Prop :=
  ∀ (b : Byte) (q r : Nat), r < 4095 →
    encodeBytes (List.replicate (4095 * q + r) b) =
      (List.replicate q [toU8 b, 0x5DFF#21]).flatten ++ encodeBytes (List.replicate r b) ∧
    (3 ≤ r → encodeBytes (List.replicate r b) = [toU8 b, BitVec.ofNat 21 (0x4E00 + r)])

/-- decode undoes encode on every byte sequence, whatever LB_SET is (41_encoder.md R173). -/
def Obligations.DecodeUndoesEncode : Prop :=
  ∀ (lb : List Scalar) (bytes : List Byte),
    decodeScalars lb (encodeBytes bytes) = .ok bytes

/-! ### DEC -/

/-- DEC.START opens a transaction in the mode of bit 1, or is ignored while one runs or drains
(43_host_interface.md R243; 10_state.md R48). -/
def Obligations.DecStartOpensATransaction : Prop :=
  ∀ (m : BitVec 1) (reserved : BitVec 30) (s : State),
    encode (.decStart m reserved) = .reg (1#1 ++ 4#4 ++ (reserved ++ m ++ 1#1)) ∧
    (s.dec.phase = .busy ∨ s.dec.phase = .drain →
      exec (.decStart m reserved) s = .next { s with resp := .accepted }) ∧
    (s.dec.phase = .idle ∨ s.dec.phase = .done → exec (.decStart m reserved) s = .next { s with
      dec := { s.dec with
        phase := .busy, cmode := if m = 1#1 then .count else .emit, pv := false, idx := 0#32, outCount := 0#32
        err := false, errKind := .none, errIdx := 0#32, errSel := 0#7, ovf := false, out := [] }
      resp := .accepted })

/-- Each decoded byte is emitted in EMIT mode only and counted in both; a wrap anywhere in the burst sets OVF
(42_decoder.md R202; 10_state.md R37, R41). -/
def Obligations.DecodedBytesAreEmittedAndCounted : Prop :=
  ∀ (b : Build) (d : Dec) (xs : List Byte), buildValid b = true → d.outCount.toNat < 2 ^ b.cntW →
    decOuts b d xs =
      { d with
        out := if d.cmode = .emit then d.out ++ xs else d.out
        outCount := BitVec.ofNat 32 ((d.outCount.toNat + xs.length) % 2 ^ b.cntW)
        ovf := d.ovf || decide (2 ^ b.cntW ≤ d.outCount.toNat + xs.length) }

/-- A line break is discarded: DEC.PUSH, and D.SKIP_LB by itself (log entry 7), change no register
(42_decoder.md R203). -/
def Obligations.LineBreaksChangeNoRegister : Prop :=
  ∀ (x : Scalar) (s : State), s.dec.phase = .busy → cls s.build.lbSet x = 3#3 →
    exec (.decPush x) s = .next { s with resp := .accepted } ∧
    exec (.dSkipLb x) s = .next { s with resp := .accepted }

/-- DEC.PUSH with nothing pending counts the scalar and holds it, or unpacks it at once if it is in U12a
(42_decoder.md R204, R213). -/
def Obligations.DecPushHoldsOrUnpacks : Prop :=
  ∀ (x : Scalar) (s : State), s.dec.phase = .busy → s.dec.pv = false → cls s.build.lbSet x ≠ 3#3 →
    exec (.decPush x) s = .next { s with
      dec :=
        if 0x5E00 ≤ x.toNat ∧ x.toNat ≤ 0x9DFF then
          decOuts s.build (countIdx s.build s.dec)
            [BitVec.ofNat 8 (64 * ((x.toNat - 0x5E00) / 8192) + (x.toNat - 0x5E00) / 64 % 64),
              BitVec.ofNat 8 (64 * ((x.toNat - 0x5E00) / 4096 % 2) + (x.toNat - 0x5E00) % 64)]
        else
          { countIdx s.build s.dec with p := x, pc := cls s.build.lbSet x, pidx := s.dec.idx, pv := true }
      resp := .accepted }

/-- DEC.PUSH with a scalar pending counts the scalar and then is the row that the pair's selector selects
(42_decoder.md R205, R206, R208, R210, R213), the row as log entry 7 performs it by itself. -/
def Obligations.DecPushClassifiesThePair : Prop :=
  ∀ (x : Scalar) (s : State), s.dec.phase = .busy → s.dec.pv = true → s.dec.pc.getLsbD 2 = false →
    cls s.build.lbSet x ≠ 3#3 →
    exec (.decPush x) s =
      match decRow (selWord 1#1 (cls s.build.lbSet x) s.dec.pc) with
      | .triple => exec (.dTriple x) { s with dec := countIdx s.build s.dec }
      | .run => exec (.dRun x) { s with dec := countIdx s.build s.dec }
      | .ss => exec (.dSs x) { s with dec := countIdx s.build s.dec }
      | _ => exec (.dErrPair (cls s.build.lbSet x) s.dec.pc x) { s with dec := countIdx s.build s.dec }

/-- DEC.PUSH while draining is accepted and discarded: no register changes (42_decoder.md R215). -/
def Obligations.DecPushIsDiscardedInDrain : Prop :=
  ∀ (x : Scalar) (s : State), s.dec.phase = .drain → exec (.decPush x) s = .next { s with resp := .accepted }

/-- DEC.END ends in DONE: cleanly with nothing pending or from DRAIN, with the last byte for a pending U8, and else with
the error LONE (42_decoder.md R209, R211, R214). -/
def Obligations.DecEndFinishes : Prop :=
  ∀ (data : Scalar) (s : State),
    encode (.decEnd data) = .decIn (1#1 ++ data) ∧
    (s.dec.phase = .drain ∨ s.dec.phase = .busy ∧ s.dec.pv = false → exec (.decEnd data) s = .next { s with
      dec := { s.dec with phase := .done }, resp := .accepted }) ∧
    (s.dec.phase = .busy → s.dec.pv = true → s.dec.pc = 1#3 → exec (.decEnd data) s = .next { s with
      dec := { decOut s.build s.dec (fromU8 s.dec.p) with pv := false, phase := .done }, resp := .accepted }) ∧
    (s.dec.phase = .busy → s.dec.pv = true → s.dec.pc ≠ 1#3 → exec (.decEnd data) s = .next { s with
      dec := { s.dec with
        err := true, errKind := .lone, errIdx := s.dec.pidx, errSel := BitVec.ofNat 7 s.dec.pc.toNat
        pv := false, phase := .done }
      resp := .accepted })

/-- D.APAIR, the row by itself (log entry 7), gives the two bytes of a U12a scalar at the scan position, whatever the selector's lookahead bits are
(42_decoder.md R204). -/
def Obligations.DApairGivesTwoBytes : Prop :=
  ∀ (hasNext : BitVec 1) (cls1 : ClassCode) (k : BitVec 2) (x : Scalar) (s : State),
    s.dec.phase = .busy → s.dec.pv = false →
    0x5E00 + 4096 * k.toNat ≤ x.toNat → x.toNat < 0x6E00 + 4096 * k.toNat →
    exec (.dApair hasNext cls1 k x) s = .next { s with
      dec := decOuts s.build s.dec
        [BitVec.ofNat 8 (64 * (k.toNat / 2) + (x.toNat - 0x5E00) / 64 % 64),
          BitVec.ofNat 8 (64 * (k.toNat % 2) + (x.toNat - 0x5E00) % 64)]
      resp := .accepted }

/-- The rows by themselves (log entry 7): D.TRIPLE, D.RUN and D.SS decode the pending scalar with the arriving one, D.LAST the pending U8 alone, and all leave
nothing pending (42_decoder.md R205-R209); a run may have any length from 0 to 4095. -/
def Obligations.DecoderPendingRowsDecode : Prop :=
  ∀ (x : Scalar) (s : State), s.dec.phase = .busy → s.dec.pv = true →
    (s.dec.pc = 2#3 → 0x4E00 ≤ x.toNat → x.toNat ≤ 0x5DFF → exec (.dTriple x) s = .next { s with
      dec := { decOuts s.build s.dec
          [(tunpack (fromU12 s.dec.p) (BitVec.ofNat 12 (x.toNat - 0x4E00))).1,
            (tunpack (fromU12 s.dec.p) (BitVec.ofNat 12 (x.toNat - 0x4E00))).2.1,
            (tunpack (fromU12 s.dec.p) (BitVec.ofNat 12 (x.toNat - 0x4E00))).2.2] with pv := false }
      resp := .accepted }) ∧
    (s.dec.pc = 1#3 → 0x4E00 ≤ x.toNat → x.toNat ≤ 0x5DFF → exec (.dRun x) s = .next { s with
      dec := { decOuts s.build s.dec (List.replicate (x.toNat - 0x4E00) (fromU8 s.dec.p)) with pv := false }
      resp := .accepted }) ∧
    (s.dec.pc = 1#3 → 0x0400 ≤ x.toNat → x.toNat ≤ 0x04FF → exec (.dSs x) s = .next { s with
      dec := { decOuts s.build s.dec [fromU8 s.dec.p, BitVec.ofNat 8 (x.toNat - 0x0400)] with pv := false }
      resp := .accepted }) ∧
    (s.dec.pc = 1#3 → exec (.dLast 0#3) s = .next { s with
      dec := { decOut s.build s.dec (fromU8 s.dec.p) with pv := false }, resp := .accepted })

/-- The rows by themselves (log entry 7): D.ERR_PAIR and D.ERR_LONE record the error with the pending scalar's index and the selector, drop the pending
scalar and drain (42_decoder.md R210-R212). -/
def Obligations.DecoderErrorRowsDrain : Prop :=
  ∀ (x : Scalar) (s : State), s.dec.phase = .busy → s.dec.pv = true →
    (cls s.build.lbSet x ≠ 3#3 →
      decRow (selWord 1#1 (cls s.build.lbSet x) s.dec.pc) = .errPair →
      exec (.dErrPair (cls s.build.lbSet x) s.dec.pc x) s = .next { s with
        dec := { s.dec with
          err := true, errKind := .pair, errIdx := s.dec.pidx
          errSel := BitVec.ofNat 7 (64 + 8 * (cls s.build.lbSet x).toNat + s.dec.pc.toNat)
          pv := false, phase := .drain }
        resp := .accepted }) ∧
    (s.dec.pc = 0#3 ∨ s.dec.pc = 2#3 →
      exec (.dErrLone 0#3 s.dec.pc) s = .next { s with
        dec := { s.dec with
          err := true, errKind := .lone, errIdx := s.dec.pidx, errSel := BitVec.ofNat 7 s.dec.pc.toNat
          pv := false, phase := .drain }
        resp := .accepted })

/-- The model's choice (log entry 7), the rows performed by themselves: a row of ENC outside BUSY or in RUN mode or
with a window that selects another row, and a row of DEC outside BUSY, or with the pending register, the arriving scalar
or the selector not as it needs, is not accepted, and no register changes. -/
def Obligations.RowsNeedTheirSelector : Prop :=
  ∀ (w0 w1 w2 : Byte) (o : Option Byte) (h : BitVec 1) (c1 c0 : ClassCode) (k : BitVec 2) (x : Scalar) (s : State),
    let waits := fun i : Instr => exec i s = .next { s with resp := .notAccepted }
    (s.enc.phase ≠ .busy ∨ s.enc.mode = .run →
      waits (.eRun w0 w1 w2) ∧ waits (.eApair w0 w1 o) ∧ waits (.eTriple w0 w1 w2) ∧ waits (.eSingle w0 o)) ∧
    (w0 = w1 ∧ w1 = w2 → waits (.eTriple w0 w1 w2) ∧ waits (.eApair w0 w1 (some w2))) ∧
    (¬ (w0 = w1 ∧ w1 = w2) → waits (.eRun w0 w1 w2)) ∧
    (w0.toNat < 128 ∧ w1.toNat < 128 → waits (.eTriple w0 w1 w2) ∧ waits (.eSingle w0 (some w1))) ∧
    (128 ≤ w0.toNat ∨ 128 ≤ w1.toNat → waits (.eApair w0 w1 o)) ∧
    (s.dec.phase ≠ .busy ∨ cls s.build.lbSet x ≠ 3#3 → waits (.dSkipLb x)) ∧
    (s.dec.phase ≠ .busy ∨ s.dec.pv = true ∨ cls s.build.lbSet x ≠ 1#1 ++ k → waits (.dApair h c1 k x)) ∧
    (s.dec.phase ≠ .busy ∨ s.dec.pv = false →
      waits (.dTriple x) ∧ waits (.dRun x) ∧ waits (.dSs x) ∧ waits (.dLast c1) ∧ waits (.dErrPair c1 c0 x) ∧
      waits (.dErrLone c1 c0)) ∧
    (s.dec.pc ≠ 2#3 ∨ cls s.build.lbSet x ≠ 2#3 → waits (.dTriple x)) ∧
    (s.dec.pc ≠ 1#3 ∨ cls s.build.lbSet x ≠ 2#3 → waits (.dRun x)) ∧
    (s.dec.pc ≠ 1#3 ∨ cls s.build.lbSet x ≠ 1#3 → waits (.dSs x)) ∧
    (s.dec.pc ≠ 1#3 ∨ c1 ≠ 0#3 → waits (.dLast c1)) ∧
    (s.dec.pc ≠ c0 ∨ cls s.build.lbSet x ≠ c1 ∨ c1 = 3#3 ∨ decRow (selWord 1#1 c1 c0) ≠ .errPair →
      waits (.dErrPair c1 c0 x)) ∧
    (s.dec.pc ≠ c0 ∨ c1 ≠ 0#3 ∨ decRow (selWord 0#1 c1 c0) ≠ .errLone → waits (.dErrLone c1 c0))

/-- Only the first decode error of a transaction is recorded, and only a START accepted in DONE, or RESET, leaves it:
every other action keeps every DEC register but the phase (60_exceptions.md R274, R275 (b), R277). -/
def Obligations.DecodeErrorStaysUntilStartOrReset : Prop :=
  ∀ (i : Instr) (s t : State), s.dec.err = true → s.dec.phase = .drain ∨ s.dec.phase = .done →
    exec i s = .next t → i ≠ .reset → ¬ (startsDec i = true ∧ s.dec.phase = .done) →
    t.dec = { s.dec with phase := t.dec.phase } ∧ (t.dec.phase = .drain ∨ t.dec.phase = .done)

/-- DEC.START, the pushes of a scalar sequence and DEC.END, run by the machine from any state in which no DEC
transaction runs, end in DONE with the result of decode: the bytes (EMIT) and their count, or the error with its kind,
index and selector; nothing outside DEC changes but the host's own side (42_decoder.md R216, R217). -/
def Obligations.DecTransactionComputesDecode : Prop :=
  ∀ (s : State) (m : CMode) (scalars : List Scalar) (rest : List Beat),
    buildValid s.build = true → s.dec.phase = .idle ∨ s.dec.phase = .done → s.inputs = decTxn m scalars ++ rest →
    ∃ t : State, Sys2Proof.core.run (scalars.length + 2) s = .next t ∧
      t.dec.phase = .done ∧ t.dec.cmode = m ∧
      t.build = s.build ∧ t.enc = s.enc ∧ t.inputs = rest ∧ t.held = s.held ∧
      t.dec.out = (if m = .emit then (decodeUnits s.build.lbSet 0 (stripLineBreaks s.build.lbSet scalars)).1 else []) ∧
      match decodeScalars s.build.lbSet scalars with
      | .ok out =>
        t.dec.err = false ∧ t.dec.outCount.toNat = out.length % 2 ^ s.build.cntW ∧ (m = .emit → t.dec.out = out)
      | .error f =>
        t.dec.err = true ∧ t.dec.errKind = f.kind ∧ t.dec.errIdx.toNat = f.index % 2 ^ s.build.cntW ∧
        t.dec.errSel = f.sel

/-- A COUNT transaction without error foretells the EMIT transaction on the same scalars, whatever the line breaks of
the two: no error, and exactly OUT_COUNT bytes modulo 2^CNT_W (42_decoder.md R218). -/
def Obligations.CountPassPredictsEmitPass : Prop :=
  ∀ (s t : State) (xs ys : List Scalar), buildValid s.build = true → s.dec.phase = .idle ∨ s.dec.phase = .done →
    s.inputs = decTxn .count xs ++ decTxn .emit ys →
    stripLineBreaks s.build.lbSet xs = stripLineBreaks s.build.lbSet ys →
    Sys2Proof.core.run (xs.length + 2) s = .next t → t.dec.err = false →
    ∃ u : State, Sys2Proof.core.run (ys.length + 2) t = .next u ∧ u.dec.phase = .done ∧ u.dec.err = false ∧
      u.dec.out.length % 2 ^ s.build.cntW = t.dec.outCount.toNat

/-- Encoding a byte sequence with ENC and decoding what it emitted with DEC, with line breaks put in anywhere on the
way, gives the byte sequence back (41_encoder.md R173; 42_decoder.md R219; 43_host_interface.md R252). -/
def Obligations.MachineRoundTripThroughLineBreaks : Prop :=
  ∀ (s : State) (bytes : List Byte) (wire : List Scalar), buildValid s.build = true →
    s.enc.phase ≠ .busy → s.dec.phase = .idle ∨ s.dec.phase = .done →
    stripLineBreaks s.build.lbSet wire = encodeBytes bytes →
    s.inputs = encTxn bytes ++ decTxn .emit wire →
    ∃ t : State, Sys2Proof.core.run (bytes.length + 2 + (wire.length + 2)) s = .next t ∧
      stripLineBreaks s.build.lbSet wire = t.enc.out ∧ t.enc.phase = .done ∧
      t.dec.out = bytes ∧ t.dec.phase = .done ∧ t.dec.err = false ∧ t.inputs = [] ∧ t.held = s.held

/-! ### The host interface -/

/-- RDREG returns the view of its register and changes no register: the status words field by field, the counters and
error fields as they stand, and 0 for ENC_CTRL, DEC_CTRL and the reserved numbers (43_host_interface.md R244;
10_state.md R44-R53). -/
def Obligations.RdregReturnsTheView : Prop :=
  ∀ (n : BitVec 4) (wdata : HostWord) (s : State),
    encode (.rdreg n wdata) = .reg (0#1 ++ n ++ wdata) ∧
    exec (.rdreg n wdata) s = .next { s with resp := .rdata (view s n) } ∧
    (view s 1#4).toNat = s.enc.phase.code.toNat + 4 * s.enc.ovf.toNat ∧
    view s 2#4 = s.enc.inCount ∧ view s 3#4 = s.enc.outCount ∧
    (view s 5#4).toNat = s.dec.phase.code.toNat + 4 * s.dec.err.toNat + 8 * s.dec.errKind.code.toNat
      + 32 * s.dec.ovf.toNat + 64 * s.dec.cmode.code.toNat ∧
    view s 6#4 = s.dec.idx ∧ view s 7#4 = s.dec.outCount ∧ view s 8#4 = s.dec.errIdx ∧
    (view s 9#4).toNat = s.dec.errSel.toNat ∧
    (n = 0#4 ∨ n = 4#4 ∨ 10 ≤ n.toNat → view s n = 0#32)

/-- WRREG is a START where it writes bit 0 of register 0 or 4, and has no effect else, whatever the register and the
value (43_host_interface.md R245; 10_state.md R45, R48, R53). -/
def Obligations.WrregOnlyStarts : Prop :=
  ∀ (n : BitVec 4) (v : HostWord) (s : State),
    encode (.wrreg n v) = .reg (1#1 ++ n ++ v) ∧
    (n = 0#4 → v.getLsbD 0 = true → exec (.wrreg n v) s = exec (.encStart (v.extractLsb' 1 31)) s) ∧
    (n = 4#4 → v.getLsbD 0 = true →
      exec (.wrreg n v) s = exec (.decStart (v.extractLsb' 1 1) (v.extractLsb' 2 30)) s) ∧
    (n ≠ 0#4 ∧ n ≠ 4#4 ∨ v.getLsbD 0 = false → exec (.wrreg n v) s = .next { s with resp := .accepted })

/-- RESET gives every register the value of the reset table and empties both streams, from any state, and keeps the
parameters of the build (70_reset_and_hazards.md R300; 10_state.md R56). -/
def Obligations.ResetRestoresEveryRegister : Prop :=
  ∀ s : State, ∃ t, exec .reset s = .next t ∧ t.resp = .accepted ∧ t.build = s.build ∧
    t.enc =
      { phase := .idle, mode := .win, wcnt := 0#2, w0 := 0#8, w1 := 0#8, rb := 0#8, rc := 0#12, inCount := 0#32
        outCount := 0#32, ovf := false, out := [] } ∧
    t.dec =
      { phase := .idle, cmode := .emit, pv := false, p := 0#21, pc := 0#3, pidx := 0#32, idx := 0#32, outCount := 0#32
        err := false, errKind := .none, errIdx := 0#32, errSel := 0#7, ovf := false, out := [] }

/-- The machine after reset: both units as the reset table says, the default parameters, and every register read gives 0
(10_state.md R56; 00_scope.md R8; 95_test_vectors.md H1). -/
def Obligations.ResetStateReadsZero : Prop :=
  State.reset.build.cntW = 32 ∧ State.reset.build.lbSet = [0x00000A#21, 0x00000D#21] ∧
  State.reset.enc.phase = .idle ∧ State.reset.dec.phase = .idle ∧
  (observe State.reset).encOut = [] ∧ (observe State.reset).decOut = [] ∧
  (observe State.reset).regs = List.replicate 16 0#32

/-- A beat outside a transaction is not accepted: no register changes, the host holds the beat, and the program goes on
with the next action (43_host_interface.md R241, R246); that it is never sent again is log entry 3. -/
def Obligations.BeatsOutsideATransactionAreHeld : Prop :=
  ∀ (s : State) (rest : List Beat), buildValid s.build = true →
    (∀ ein : BitVec 9, s.enc.phase = .idle ∨ s.enc.phase = .done → s.inputs = .encIn ein :: rest →
      step s = .next { s with inputs := rest, held := s.held ++ [.encIn ein], resp := .notAccepted }) ∧
    (∀ din : BitVec 22, s.dec.phase = .idle ∨ s.dec.phase = .done → s.inputs = .decIn din :: rest →
      step s = .next { s with inputs := rest, held := s.held ++ [.decIn din], resp := .notAccepted })

/-- A step takes the host's next beat from the queue and performs the action it decodes to; if that answers a next state,
so does the step, with a beat that was not accepted put with those the host holds (00_scope.md R13;
43_host_interface.md R240, R246). -/
def Obligations.StepPerformsTheDecodedAction : Prop :=
  ∀ (s t : State) (b : Beat) (rest : List Beat) (i : Instr), buildValid s.build = true → s.inputs = b :: rest →
    decode b = .ok i → exec i { s with inputs := rest } = .next t →
    step s = .next (if t.resp = .notAccepted ∧ b.isHost = true then { t with held := t.held ++ [b] } else t)

/-- The machine never stops on anything a host can send: for a UBC-1 build, every step whose next beat is a host's, and
not a reset input left at 0, answers a next state with that beat taken from the queue (43_host_interface.md R240, R241;
60_exceptions.md R276). -/
def Obligations.HostStepsNeverStop : Prop :=
  ∀ (s : State) (b : Beat) (rest : List Beat), buildValid s.build = true → s.inputs = b :: rest → b.isHost = true →
    b ≠ .rst 0#1 → ∃ t, step s = .next t ∧ t.inputs = rest ∧ t.build = s.build

/-! ### The whole block -/

/-- No action traps or stops: each answers a next state, keeps the build, the host's queue and the held beats, and leaves
alone the registers of every unit that it does not belong to (60_exceptions.md R276-R278; 20_memory.md R71 (d)). -/
def Obligations.EveryActionCompletesInItsUnit : Prop :=
  ∀ (i : Instr) (s : State), ∃ t, exec i s = .next t ∧
    t.build = s.build ∧ t.inputs = s.inputs ∧ t.held = s.held ∧
    (unitOf i = .prim → t.enc = s.enc ∧ t.dec = s.dec) ∧
    (unitOf i = .enc → t.dec = s.dec) ∧
    (unitOf i = .dec → t.enc = s.enc)

/-- Steps of different units may come in either order: the registers end alike, and each action gets the same answer
(20_memory.md R71 (d), R76). -/
def Obligations.UnitsCommute : Prop :=
  ∀ (i j : Instr) (s : State), unitOf i ≠ unitOf j → unitOf i ≠ .host → unitOf j ≠ .host →
    ∃ si sj sij sji : State,
      exec i s = .next si ∧ exec j si = .next sij ∧ exec j s = .next sj ∧ exec i sj = .next sji ∧
      sij.enc = sji.enc ∧ sij.dec = sji.dec ∧ sij.build = sji.build ∧ sij.inputs = sji.inputs ∧ sij.held = sji.held ∧
      sij.resp = sj.resp ∧ sji.resp = si.resp

/-- The phases and CMODE change only as R24, R33 and R35 say: by an accepted START, by END, by a decode error, and by
RESET (10_state.md R24, R33, R35). -/
def Obligations.PhasesChangeOnlyAsStated : Prop :=
  ∀ (i : Instr) (s t : State), exec i s = .next t → i ≠ .reset →
    (t.enc.phase ≠ s.enc.phase →
      startsEnc i = true ∧ s.enc.phase ≠ .busy ∧ t.enc.phase = .busy ∨
      (∃ data, i = .encEnd data) ∧ s.enc.phase = .busy ∧ t.enc.phase = .done) ∧
    (t.dec.phase ≠ s.dec.phase →
      startsDec i = true ∧ (s.dec.phase = .idle ∨ s.dec.phase = .done) ∧ t.dec.phase = .busy ∨
      (∃ data, i = .decEnd data) ∧ (s.dec.phase = .busy ∨ s.dec.phase = .drain) ∧ t.dec.phase = .done ∨
      s.dec.phase = .busy ∧ t.dec.phase = .drain ∧ t.dec.err = true) ∧
    (t.dec.cmode ≠ s.dec.cmode → startsDec i = true ∧ (s.dec.phase = .idle ∨ s.dec.phase = .done))

/-- Each stream is append-only within a transaction, and a step emits at most two scalars, each in a range, and at most
4095 bytes, none in COUNT mode (10_state.md R55; 41_encoder.md R171; 42_decoder.md R202, R221). -/
def Obligations.StreamsOnlyGrow : Prop :=
  ∀ (i : Instr) (s t : State), exec i s = .next t → i ≠ .reset →
    (startsEnc i = false ∨ s.enc.phase = .busy →
      ∃ new, t.enc.out = s.enc.out ++ new ∧ new.length ≤ 2 ∧ ∀ x ∈ new, inRange x = true) ∧
    (startsDec i = false ∨ s.dec.phase = .busy ∨ s.dec.phase = .drain →
      ∃ new, t.dec.out = s.dec.out ++ new ∧ new.length ≤ 4095 ∧ (s.dec.cmode = .count → new = []))

/-- OVF is sticky, and set by a step exactly when one of its unit's counters wraps in it; only an accepted START and
RESET clear it (10_state.md R31, R41, R43). A counter that advanced and ends below where it started plus what it counted
has wrapped. -/
def Obligations.OverflowRecordsEveryWrap : Prop :=
  ∀ (i : Instr) (s t : State), Inv s → exec i s = .next t → i ≠ .reset →
    (startsEnc i = false ∨ s.enc.phase = .busy →
      (t.enc.ovf = true ↔ s.enc.ovf = true ∨
        t.enc.inCount ≠ s.enc.inCount ∧ t.enc.inCount = 0#32 ∨
        t.enc.outCount.toNat < s.enc.outCount.toNat + (t.enc.out.length - s.enc.out.length))) ∧
    (startsDec i = false ∨ s.dec.phase = .busy ∨ s.dec.phase = .drain →
      (s.dec.ovf = true → t.dec.ovf = true) ∧
      (t.dec.idx ≠ s.dec.idx → t.dec.idx = 0#32 → t.dec.ovf = true) ∧
      (s.dec.cmode = .emit → (t.dec.ovf = true ↔ s.dec.ovf = true ∨
        t.dec.idx ≠ s.dec.idx ∧ t.dec.idx = 0#32 ∨
        t.dec.outCount.toNat < s.dec.outCount.toNat + (t.dec.out.length - s.dec.out.length))))

/-- A push that emits nothing leaves ENC's scan position where it was, and a push that holds a scalar, or is stripped or
discarded, leaves DEC's (10_state.md R23). -/
def Obligations.HoldingKeepsTheScanPosition : Prop :=
  ∀ (s t : State), Inv s →
    (∀ x : Byte, exec (.encPush x) s = .next t → t.enc.out = s.enc.out →
      encScanPos t.build t.enc = encScanPos s.build s.enc) ∧
    (∀ x : Scalar, exec (.decPush x) s = .next t →
      t.dec.pv = true ∨ cls s.build.lbSet x = 3#3 ∨ s.dec.phase ≠ .busy →
      decScanPos t.build t.dec = decScanPos s.build s.dec)

/-- The invariant holds right after reset (10_state.md R32, R42, R56). -/
def Obligations.InvariantHoldsAtReset : Prop := Inv State.reset

/-- Every step, of a host's action or of a row by itself, keeps the invariant of the two units (10_state.md R32, R42). -/
def Obligations.StepKeepsTheInvariant : Prop :=
  ∀ s t : State, Inv s → step s = .next t → Inv t

/-- Register contents that the spec leaves open cannot be observed: two states that differ in them alone step alike,
into states that again differ in them alone, and show the same (10_state.md R27, R34, R54; 43_host_interface.md R254). -/
def Obligations.OpenContentsAreUnobservable : Prop :=
  ∀ s t : State, SameVisible s t → observe s = observe t ∧
    ∀ s', step s = .next s' → ∃ t', step t = .next t' ∧ SameVisible s' t'

/-- Counters change no output: two machines that differ only in CNT_W and in what their counters hold step alike, with
the same streams (10_state.md R31, R41; 70_reset_and_hazards.md R305, R313). -/
def Obligations.CountersChangeNoOutput : Prop :=
  ∀ s t s' : State, SameButCounters s t → buildValid s.build = true → buildValid t.build = true →
    step s = .next s' → ∃ t', step t = .next t' ∧ SameButCounters s' t'
end

