-- ==== Sys2Proof/Laws/State.lean ====
section
/-! SUPPORT. What each update of a unit does to each of its registers, one lemma a field. -/

namespace Sys2Proof.Machine

/-! ### ENC updates -/

@[simp] theorem encEmit_phase (b : Build) (e : Enc) (s : Scalar) : (encEmit b e s).phase = e.phase := rfl
@[simp] theorem encEmit_mode (b : Build) (e : Enc) (s : Scalar) : (encEmit b e s).mode = e.mode := rfl
@[simp] theorem encEmit_wcnt (b : Build) (e : Enc) (s : Scalar) : (encEmit b e s).wcnt = e.wcnt := rfl
@[simp] theorem encEmit_w0 (b : Build) (e : Enc) (s : Scalar) : (encEmit b e s).w0 = e.w0 := rfl
@[simp] theorem encEmit_w1 (b : Build) (e : Enc) (s : Scalar) : (encEmit b e s).w1 = e.w1 := rfl
@[simp] theorem encEmit_rb (b : Build) (e : Enc) (s : Scalar) : (encEmit b e s).rb = e.rb := rfl
@[simp] theorem encEmit_rc (b : Build) (e : Enc) (s : Scalar) : (encEmit b e s).rc = e.rc := rfl
@[simp] theorem encEmit_inCount (b : Build) (e : Enc) (s : Scalar) : (encEmit b e s).inCount = e.inCount := rfl
@[simp] theorem encEmit_outCount (b : Build) (e : Enc) (s : Scalar) : (encEmit b e s).outCount = countUp b.cntW e.outCount := rfl
@[simp] theorem encEmit_ovf (b : Build) (e : Enc) (s : Scalar) : (encEmit b e s).ovf = stickyOvf e.ovf (countUp b.cntW e.outCount) := rfl
@[simp] theorem encEmit_out (b : Build) (e : Enc) (s : Scalar) : (encEmit b e s).out = e.out ++ [s] := rfl

@[simp] theorem countIn_phase (b : Build) (e : Enc) : (countIn b e).phase = e.phase := rfl
@[simp] theorem countIn_mode (b : Build) (e : Enc) : (countIn b e).mode = e.mode := rfl
@[simp] theorem countIn_wcnt (b : Build) (e : Enc) : (countIn b e).wcnt = e.wcnt := rfl
@[simp] theorem countIn_w0 (b : Build) (e : Enc) : (countIn b e).w0 = e.w0 := rfl
@[simp] theorem countIn_w1 (b : Build) (e : Enc) : (countIn b e).w1 = e.w1 := rfl
@[simp] theorem countIn_rb (b : Build) (e : Enc) : (countIn b e).rb = e.rb := rfl
@[simp] theorem countIn_rc (b : Build) (e : Enc) : (countIn b e).rc = e.rc := rfl
@[simp] theorem countIn_inCount (b : Build) (e : Enc) : (countIn b e).inCount = countUp b.cntW e.inCount := rfl
@[simp] theorem countIn_outCount (b : Build) (e : Enc) : (countIn b e).outCount = e.outCount := rfl
@[simp] theorem countIn_ovf (b : Build) (e : Enc) : (countIn b e).ovf = stickyOvf e.ovf (countUp b.cntW e.inCount) := rfl
@[simp] theorem countIn_out (b : Build) (e : Enc) : (countIn b e).out = e.out := rfl

@[simp] theorem closeRun_phase (b : Build) (e : Enc) : (closeRun b e).phase = e.phase := rfl
@[simp] theorem closeRun_mode (b : Build) (e : Enc) : (closeRun b e).mode = .win := rfl
@[simp] theorem closeRun_wcnt (b : Build) (e : Enc) : (closeRun b e).wcnt = e.wcnt := rfl
@[simp] theorem closeRun_w0 (b : Build) (e : Enc) : (closeRun b e).w0 = e.w0 := rfl
@[simp] theorem closeRun_w1 (b : Build) (e : Enc) : (closeRun b e).w1 = e.w1 := rfl
@[simp] theorem closeRun_rb (b : Build) (e : Enc) : (closeRun b e).rb = e.rb := rfl
@[simp] theorem closeRun_rc (b : Build) (e : Enc) : (closeRun b e).rc = e.rc := rfl
@[simp] theorem closeRun_inCount (b : Build) (e : Enc) : (closeRun b e).inCount = e.inCount := rfl

@[simp] theorem startEnc_phase (e : Enc) : (startEnc e).phase = .busy := rfl
@[simp] theorem startEnc_mode (e : Enc) : (startEnc e).mode = .win := rfl
@[simp] theorem startEnc_wcnt (e : Enc) : (startEnc e).wcnt = 0#2 := rfl
@[simp] theorem startEnc_w0 (e : Enc) : (startEnc e).w0 = e.w0 := rfl
@[simp] theorem startEnc_w1 (e : Enc) : (startEnc e).w1 = e.w1 := rfl
@[simp] theorem startEnc_rb (e : Enc) : (startEnc e).rb = 0#8 := rfl
@[simp] theorem startEnc_rc (e : Enc) : (startEnc e).rc = 0#12 := rfl
@[simp] theorem startEnc_inCount (e : Enc) : (startEnc e).inCount = 0#32 := rfl
@[simp] theorem startEnc_outCount (e : Enc) : (startEnc e).outCount = 0#32 := rfl
@[simp] theorem startEnc_ovf (e : Enc) : (startEnc e).ovf = false := rfl
@[simp] theorem startEnc_out (e : Enc) : (startEnc e).out = [] := rfl

/-! ### DEC updates -/

@[simp] theorem decOut_phase (b : Build) (d : Dec) (x : Byte) : (decOut b d x).phase = d.phase := rfl
@[simp] theorem decOut_cmode (b : Build) (d : Dec) (x : Byte) : (decOut b d x).cmode = d.cmode := rfl
@[simp] theorem decOut_pv (b : Build) (d : Dec) (x : Byte) : (decOut b d x).pv = d.pv := rfl
@[simp] theorem decOut_p (b : Build) (d : Dec) (x : Byte) : (decOut b d x).p = d.p := rfl
@[simp] theorem decOut_pc (b : Build) (d : Dec) (x : Byte) : (decOut b d x).pc = d.pc := rfl
@[simp] theorem decOut_pidx (b : Build) (d : Dec) (x : Byte) : (decOut b d x).pidx = d.pidx := rfl
@[simp] theorem decOut_idx (b : Build) (d : Dec) (x : Byte) : (decOut b d x).idx = d.idx := rfl
@[simp] theorem decOut_outCount (b : Build) (d : Dec) (x : Byte) : (decOut b d x).outCount = countUp b.cntW d.outCount := rfl
@[simp] theorem decOut_err (b : Build) (d : Dec) (x : Byte) : (decOut b d x).err = d.err := rfl
@[simp] theorem decOut_errKind (b : Build) (d : Dec) (x : Byte) : (decOut b d x).errKind = d.errKind := rfl
@[simp] theorem decOut_errIdx (b : Build) (d : Dec) (x : Byte) : (decOut b d x).errIdx = d.errIdx := rfl
@[simp] theorem decOut_errSel (b : Build) (d : Dec) (x : Byte) : (decOut b d x).errSel = d.errSel := rfl
@[simp] theorem decOut_ovf (b : Build) (d : Dec) (x : Byte) : (decOut b d x).ovf = stickyOvf d.ovf (countUp b.cntW d.outCount) := rfl
@[simp] theorem decOut_out (b : Build) (d : Dec) (x : Byte) : (decOut b d x).out = if d.cmode = .emit then d.out ++ [x] else d.out := rfl

@[simp] theorem countIdx_phase (b : Build) (d : Dec) : (countIdx b d).phase = d.phase := rfl
@[simp] theorem countIdx_cmode (b : Build) (d : Dec) : (countIdx b d).cmode = d.cmode := rfl
@[simp] theorem countIdx_pv (b : Build) (d : Dec) : (countIdx b d).pv = d.pv := rfl
@[simp] theorem countIdx_p (b : Build) (d : Dec) : (countIdx b d).p = d.p := rfl
@[simp] theorem countIdx_pc (b : Build) (d : Dec) : (countIdx b d).pc = d.pc := rfl
@[simp] theorem countIdx_pidx (b : Build) (d : Dec) : (countIdx b d).pidx = d.pidx := rfl
@[simp] theorem countIdx_idx (b : Build) (d : Dec) : (countIdx b d).idx = countUp b.cntW d.idx := rfl
@[simp] theorem countIdx_outCount (b : Build) (d : Dec) : (countIdx b d).outCount = d.outCount := rfl
@[simp] theorem countIdx_err (b : Build) (d : Dec) : (countIdx b d).err = d.err := rfl
@[simp] theorem countIdx_errKind (b : Build) (d : Dec) : (countIdx b d).errKind = d.errKind := rfl
@[simp] theorem countIdx_errIdx (b : Build) (d : Dec) : (countIdx b d).errIdx = d.errIdx := rfl
@[simp] theorem countIdx_errSel (b : Build) (d : Dec) : (countIdx b d).errSel = d.errSel := rfl
@[simp] theorem countIdx_ovf (b : Build) (d : Dec) : (countIdx b d).ovf = stickyOvf d.ovf (countUp b.cntW d.idx) := rfl
@[simp] theorem countIdx_out (b : Build) (d : Dec) : (countIdx b d).out = d.out := rfl

@[simp] theorem holdScalar_phase (d : Dec) (s : Scalar) (c : ClassCode) (j : HostWord) : (holdScalar d s c j).phase = d.phase := rfl
@[simp] theorem holdScalar_cmode (d : Dec) (s : Scalar) (c : ClassCode) (j : HostWord) : (holdScalar d s c j).cmode = d.cmode := rfl
@[simp] theorem holdScalar_pv (d : Dec) (s : Scalar) (c : ClassCode) (j : HostWord) : (holdScalar d s c j).pv = true := rfl
@[simp] theorem holdScalar_p (d : Dec) (s : Scalar) (c : ClassCode) (j : HostWord) : (holdScalar d s c j).p = s := rfl
@[simp] theorem holdScalar_pc (d : Dec) (s : Scalar) (c : ClassCode) (j : HostWord) : (holdScalar d s c j).pc = c := rfl
@[simp] theorem holdScalar_pidx (d : Dec) (s : Scalar) (c : ClassCode) (j : HostWord) : (holdScalar d s c j).pidx = j := rfl
@[simp] theorem holdScalar_idx (d : Dec) (s : Scalar) (c : ClassCode) (j : HostWord) : (holdScalar d s c j).idx = d.idx := rfl
@[simp] theorem holdScalar_outCount (d : Dec) (s : Scalar) (c : ClassCode) (j : HostWord) : (holdScalar d s c j).outCount = d.outCount := rfl
@[simp] theorem holdScalar_err (d : Dec) (s : Scalar) (c : ClassCode) (j : HostWord) : (holdScalar d s c j).err = d.err := rfl
@[simp] theorem holdScalar_errKind (d : Dec) (s : Scalar) (c : ClassCode) (j : HostWord) : (holdScalar d s c j).errKind = d.errKind := rfl
@[simp] theorem holdScalar_errIdx (d : Dec) (s : Scalar) (c : ClassCode) (j : HostWord) : (holdScalar d s c j).errIdx = d.errIdx := rfl
@[simp] theorem holdScalar_errSel (d : Dec) (s : Scalar) (c : ClassCode) (j : HostWord) : (holdScalar d s c j).errSel = d.errSel := rfl
@[simp] theorem holdScalar_ovf (d : Dec) (s : Scalar) (c : ClassCode) (j : HostWord) : (holdScalar d s c j).ovf = d.ovf := rfl
@[simp] theorem holdScalar_out (d : Dec) (s : Scalar) (c : ClassCode) (j : HostWord) : (holdScalar d s c j).out = d.out := rfl

@[simp] theorem raiseDecodeError_phase (d : Dec) (k : ErrKind) (j : HostWord) (sel : BitVec 7) : (raiseDecodeError d k j sel).phase = .drain := rfl
@[simp] theorem raiseDecodeError_cmode (d : Dec) (k : ErrKind) (j : HostWord) (sel : BitVec 7) : (raiseDecodeError d k j sel).cmode = d.cmode := rfl
@[simp] theorem raiseDecodeError_pv (d : Dec) (k : ErrKind) (j : HostWord) (sel : BitVec 7) : (raiseDecodeError d k j sel).pv = false := rfl
@[simp] theorem raiseDecodeError_p (d : Dec) (k : ErrKind) (j : HostWord) (sel : BitVec 7) : (raiseDecodeError d k j sel).p = d.p := rfl
@[simp] theorem raiseDecodeError_pc (d : Dec) (k : ErrKind) (j : HostWord) (sel : BitVec 7) : (raiseDecodeError d k j sel).pc = d.pc := rfl
@[simp] theorem raiseDecodeError_pidx (d : Dec) (k : ErrKind) (j : HostWord) (sel : BitVec 7) : (raiseDecodeError d k j sel).pidx = d.pidx := rfl
@[simp] theorem raiseDecodeError_idx (d : Dec) (k : ErrKind) (j : HostWord) (sel : BitVec 7) : (raiseDecodeError d k j sel).idx = d.idx := rfl
@[simp] theorem raiseDecodeError_outCount (d : Dec) (k : ErrKind) (j : HostWord) (sel : BitVec 7) : (raiseDecodeError d k j sel).outCount = d.outCount := rfl
@[simp] theorem raiseDecodeError_err (d : Dec) (k : ErrKind) (j : HostWord) (sel : BitVec 7) : (raiseDecodeError d k j sel).err = true := rfl
@[simp] theorem raiseDecodeError_errKind (d : Dec) (k : ErrKind) (j : HostWord) (sel : BitVec 7) : (raiseDecodeError d k j sel).errKind = k := rfl
@[simp] theorem raiseDecodeError_errIdx (d : Dec) (k : ErrKind) (j : HostWord) (sel : BitVec 7) : (raiseDecodeError d k j sel).errIdx = j := rfl
@[simp] theorem raiseDecodeError_errSel (d : Dec) (k : ErrKind) (j : HostWord) (sel : BitVec 7) : (raiseDecodeError d k j sel).errSel = sel := rfl
@[simp] theorem raiseDecodeError_ovf (d : Dec) (k : ErrKind) (j : HostWord) (sel : BitVec 7) : (raiseDecodeError d k j sel).ovf = d.ovf := rfl
@[simp] theorem raiseDecodeError_out (d : Dec) (k : ErrKind) (j : HostWord) (sel : BitVec 7) : (raiseDecodeError d k j sel).out = d.out := rfl

@[simp] theorem returnFromTransaction_phase (d : Dec) : (returnFromTransaction d).phase = .done := rfl
@[simp] theorem returnFromTransaction_cmode (d : Dec) : (returnFromTransaction d).cmode = d.cmode := rfl
@[simp] theorem returnFromTransaction_pv (d : Dec) : (returnFromTransaction d).pv = d.pv := rfl
@[simp] theorem returnFromTransaction_p (d : Dec) : (returnFromTransaction d).p = d.p := rfl
@[simp] theorem returnFromTransaction_pc (d : Dec) : (returnFromTransaction d).pc = d.pc := rfl
@[simp] theorem returnFromTransaction_pidx (d : Dec) : (returnFromTransaction d).pidx = d.pidx := rfl
@[simp] theorem returnFromTransaction_idx (d : Dec) : (returnFromTransaction d).idx = d.idx := rfl
@[simp] theorem returnFromTransaction_outCount (d : Dec) : (returnFromTransaction d).outCount = d.outCount := rfl
@[simp] theorem returnFromTransaction_err (d : Dec) : (returnFromTransaction d).err = d.err := rfl
@[simp] theorem returnFromTransaction_errKind (d : Dec) : (returnFromTransaction d).errKind = d.errKind := rfl
@[simp] theorem returnFromTransaction_errIdx (d : Dec) : (returnFromTransaction d).errIdx = d.errIdx := rfl
@[simp] theorem returnFromTransaction_errSel (d : Dec) : (returnFromTransaction d).errSel = d.errSel := rfl
@[simp] theorem returnFromTransaction_ovf (d : Dec) : (returnFromTransaction d).ovf = d.ovf := rfl
@[simp] theorem returnFromTransaction_out (d : Dec) : (returnFromTransaction d).out = d.out := rfl

@[simp] theorem startDec_phase (d : Dec) (m : CMode) : (startDec d m).phase = .busy := rfl
@[simp] theorem startDec_cmode (d : Dec) (m : CMode) : (startDec d m).cmode = m := rfl
@[simp] theorem startDec_pv (d : Dec) (m : CMode) : (startDec d m).pv = false := rfl
@[simp] theorem startDec_p (d : Dec) (m : CMode) : (startDec d m).p = d.p := rfl
@[simp] theorem startDec_pc (d : Dec) (m : CMode) : (startDec d m).pc = d.pc := rfl
@[simp] theorem startDec_pidx (d : Dec) (m : CMode) : (startDec d m).pidx = d.pidx := rfl
@[simp] theorem startDec_idx (d : Dec) (m : CMode) : (startDec d m).idx = 0#32 := rfl
@[simp] theorem startDec_outCount (d : Dec) (m : CMode) : (startDec d m).outCount = 0#32 := rfl
@[simp] theorem startDec_err (d : Dec) (m : CMode) : (startDec d m).err = false := rfl
@[simp] theorem startDec_errKind (d : Dec) (m : CMode) : (startDec d m).errKind = .none := rfl
@[simp] theorem startDec_errIdx (d : Dec) (m : CMode) : (startDec d m).errIdx = 0#32 := rfl
@[simp] theorem startDec_errSel (d : Dec) (m : CMode) : (startDec d m).errSel = 0#7 := rfl
@[simp] theorem startDec_ovf (d : Dec) (m : CMode) : (startDec d m).ovf = false := rfl
@[simp] theorem startDec_out (d : Dec) (m : CMode) : (startDec d m).out = [] := rfl

/-! ### The host's side -/

@[simp] theorem loadNext_build (s : State) (b : Beat) : (loadNext s b).build = s.build := rfl
@[simp] theorem loadNext_enc (s : State) (b : Beat) : (loadNext s b).enc = s.enc := rfl
@[simp] theorem loadNext_dec (s : State) (b : Beat) : (loadNext s b).dec = s.dec := rfl
@[simp] theorem loadNext_resp (s : State) (b : Beat) : (loadNext s b).resp = s.resp := rfl
@[simp] theorem loadNext_inputs (s : State) (b : Beat) : (loadNext s b).inputs = b :: s.inputs := rfl
@[simp] theorem loadNext_held (s : State) (b : Beat) : (loadNext s b).held = s.held := rfl

end Sys2Proof.Machine
end

