-- ==== Sys2Proof/Laws/Ops.lean ====
section
/-! SUPPORT. For each shared operation, once, what it can do; the proofs cite these and do not unfold it. -/

namespace Sys2Proof.Machine

/-! ### Parameters and counters -/

theorem buildValid_iff (b : Build) :
    buildValid b = true ↔ 1 ≤ b.cntW ∧ b.cntW ≤ 32 ∧ ∀ s ∈ b.lbSet, inRange s = false := by
  simp [buildValid, and_assoc]

theorem countUp_toNat {k : Nat} (hk : k ≤ 32) (c : HostWord) : (countUp k c).toNat = (c.toNat + 1) % 2 ^ k := by
  have h1 : (c.toNat + 1) % 2 ^ k < 2 ^ k := Nat.mod_lt _ (Nat.two_pow_pos k)
  have h2 : 2 ^ k ≤ 2 ^ 32 := Nat.pow_le_pow_right (by omega) hk
  rw [countUp, BitVec.toNat_ofNat, Nat.mod_eq_of_lt (lt_of_lt_of_le h1 h2)]

theorem countUp_lt {k : Nat} (hk : k ≤ 32) (c : HostWord) : (countUp k c).toNat < 2 ^ k := by
  rw [countUp_toNat hk]
  exact Nat.mod_lt _ (Nat.two_pow_pos k)

@[simp] theorem stickyOvf_true (c : HostWord) : stickyOvf true c = true := rfl

theorem stickyOvf_eq_true (o : Bool) (c : HostWord) : stickyOvf o c = true ↔ o = true ∨ c = 0#32 := by
  simp [stickyOvf]

/-! ### DEC output -/

@[simp] theorem decOuts_nil (b : Build) (d : Dec) : decOuts b d [] = d := rfl

@[simp] theorem decOuts_cons (b : Build) (d : Dec) (x : Byte) (xs : List Byte) :
    decOuts b d (x :: xs) = decOuts b (decOut b d x) xs := rfl

theorem decOuts_append (b : Build) (d : Dec) (xs ys : List Byte) :
    decOuts b d (xs ++ ys) = decOuts b (decOuts b d xs) ys := by
  induction xs generalizing d with
  | nil => rfl
  | cons x xs ih => exact ih _

/-- `out` writes the stream, the count and the overflow bit alone. -/
theorem decOuts_frame (b : Build) (d : Dec) (xs : List Byte) :
    decOuts b d xs =
      { d with
        out := (decOuts b d xs).out
        outCount := (decOuts b d xs).outCount
        ovf := (decOuts b d xs).ovf } := by
  induction xs generalizing d with
  | nil => rfl
  | cons x xs ih => rw [decOuts_cons, ih]; rfl

theorem decOuts_out_emit (b : Build) (d : Dec) (xs : List Byte) (h : d.cmode = .emit) :
    (decOuts b d xs).out = d.out ++ xs := by
  induction xs generalizing d with
  | nil => simp
  | cons x xs ih =>
    rw [decOuts_cons, ih _ (by simpa using h)]
    simp [h]

theorem decOuts_out_count (b : Build) (d : Dec) (xs : List Byte) (h : d.cmode = .count) :
    (decOuts b d xs).out = d.out := by
  induction xs generalizing d with
  | nil => rfl
  | cons x xs ih =>
    rw [decOuts_cons, ih _ (by simpa using h)]
    simp [h]

/-! ### The tokenizer -/

theorem decideWindow_of_row {w : List Byte} {row : EncRow} (h : encRow (esel w) = some row) (b : Build) (e : Enc) :
    decideWindow b e w = tokenAction b e row w := by
  simp [decideWindow, h]

theorem keepRest_run {e : Enc} (h : e.mode = .run) (rest : List Byte) : keepRest e rest = e := by
  simp [keepRest, h]

theorem keepRest_nil {e : Enc} (h : e.mode = .win) : keepRest e [] = { e with wcnt := 0#2 } := by
  simp [keepRest, h]

theorem keepRest_one {e : Enc} (h : e.mode = .win) (x : Byte) : keepRest e [x] = { e with wcnt := 1#2, w0 := x } := by
  simp [keepRest, h]

/-- A token action leaves the phase, the input count and the window bytes alone. -/
theorem tokenAction_frame (b : Build) (e : Enc) (row : EncRow) (w : List Byte) :
    (tokenAction b e row w).1.phase = e.phase ∧ (tokenAction b e row w).1.inCount = e.inCount ∧
      (tokenAction b e row w).1.w0 = e.w0 ∧ (tokenAction b e row w).1.w1 = e.w1 := by
  cases row <;> exact ⟨rfl, rfl, rfl, rfl⟩

@[simp] theorem flushWindow_nil (b : Build) (n : Nat) (e : Enc) : flushWindow b n e [] = e := by
  cases n <;> rfl

theorem encStartOp_busy {e : Enc} (h : e.phase = .busy) : encStartOp e = e := by simp [encStartOp, h]

theorem encStartOp_start {e : Enc} (h : e.phase ≠ .busy) : encStartOp e = startEnc e := by simp [encStartOp, h]

theorem decStartOp_running {d : Dec} (h : decRunning d = true) (m : CMode) : decStartOp d m = d := by
  simp [decStartOp, h]

theorem decStartOp_start {d : Dec} (h : decRunning d = false) (m : CMode) : decStartOp d m = startDec d m := by
  simp [decStartOp, h]

/-! ### How an action ends -/

/-- A token row by itself is performed, or it is not accepted. -/
theorem execToken_cases (row : EncRow) (w : List Byte) (s : State) :
    (s.enc.phase = .busy ∧ s.enc.mode = .win ∧ encRow (esel w) = some row ∧
      execToken row w s =
        acceptEnc s (keepRest (tokenAction s.build s.enc row w).1 (tokenAction s.build s.enc row w).2)) ∨
    execToken row w s = notAccept s := by
  unfold execToken
  split
  · rename_i h
    exact .inl ⟨h.1, h.2.1, h.2.2, rfl⟩
  · exact .inr rfl

/-- A decoder row by itself is performed, or it is not accepted. -/
theorem execRow_cases (c : Bool) (d : Dec) (s : State) :
    (c = true ∧ execRow c d s = acceptDec s d) ∨ (c = false ∧ execRow c d s = notAccept s) := by
  cases c
  · exact .inr ⟨rfl, rfl⟩
  · exact .inl ⟨rfl, rfl⟩

theorem pairSelects_iff (b : Build) (d : Dec) (s : Scalar) (sel : BitVec 7) :
    pairSelects b d s sel = true ↔
      d.phase = .busy ∧ d.pv = true ∧ cls b.lbSet s ≠ 3#3 ∧ selWord 1#1 (cls b.lbSet s) d.pc = sel := by
  simp [pairSelects, and_assoc]

theorem loneSelects_iff (d : Dec) (sel : BitVec 7) :
    loneSelects d sel = true ↔ d.phase = .busy ∧ d.pv = true ∧ selWord 0#1 0#3 d.pc = sel := by
  simp [loneSelects, and_assoc]

theorem decRunning_iff (d : Dec) : decRunning d = true ↔ d.phase = .busy ∨ d.phase = .drain := by
  simp [decRunning]

/-! ### The host's side -/

@[simp] theorem fetch_loadNext (s : State) (b : Beat) : fetch (loadNext s b) = some (b, s) := rfl

theorem fetch_eq_some {s s' : State} {b : Beat} :
    fetch s = some (b, s') ↔ ∃ rest, s.inputs = b :: rest ∧ s' = { s with inputs := rest } := by
  unfold fetch
  cases h : s.inputs with
  | nil => simp
  | cons c rest => constructor <;> simp <;> intro h1 h2 <;> exact ⟨h1, h2.symm⟩

theorem holdIfNotAccepted_accepted {b : Beat} {t : State} (h : t.resp ≠ .notAccepted) :
    holdIfNotAccepted b (.next t) = .next t := by
  simp [holdIfNotAccepted, h]

theorem holdIfNotAccepted_held {b : Beat} {t : State} (h : t.resp = .notAccepted) (hb : b.isHost = true) :
    holdIfNotAccepted b (.next t) = .next { t with held := t.held ++ [b] } := by
  simp [holdIfNotAccepted, h, hb]

end Sys2Proof.Machine
end

