-- ==== Sys2Proof/Laws/PerInstr.lean ====
section
/-! SUPPORT. One lemma for each constructor of `Instr`: the encoding of an action travels on the port of its row's
format. -/

namespace Sys2Proof.Laws.Port

open Sys2Proof Sys2Proof.Machine

/-- The encoding of `i` is a beat on the port that spec/opcode_table.json gives its row (R61, R83-R90). -/
def Statement (i : Instr) : Prop := (encode i).port = portOf i

theorem primClass (a b c : Scalar) : Statement (.primClass a b c) := rfl

theorem primB2u8 (a b c : Scalar) : Statement (.primB2u8 a b c) := rfl

theorem primU82b (a b c : Scalar) : Statement (.primU82b a b c) := rfl

theorem primN2u12 (a b c : Scalar) : Statement (.primN2u12 a b c) := rfl

theorem primU122n (a b c : Scalar) : Statement (.primU122n a b c) := rfl

theorem primTpack (a b c : Scalar) : Statement (.primTpack a b c) := rfl

theorem primTunpack (a b c : Scalar) : Statement (.primTunpack a b c) := rfl

theorem primApack (a b c : Scalar) : Statement (.primApack a b c) := rfl

theorem primAunpack (a b c : Scalar) : Statement (.primAunpack a b c) := rfl

theorem primRpack (a b c : Scalar) : Statement (.primRpack a b c) := rfl

theorem primRunpack (a b c : Scalar) : Statement (.primRunpack a b c) := rfl

theorem primReservedB (a b c : Scalar) : Statement (.primReservedB a b c) := rfl

theorem primReservedCF (fsel : BitVec 2) (a b c : Scalar) : Statement (.primReservedCF fsel a b c) := rfl

theorem eRun (w0 w1 w2 : Byte) : Statement (.eRun w0 w1 w2) := rfl

theorem eApair (w0 w1 : Byte) (w2 : Option Byte) : Statement (.eApair w0 w1 w2) := rfl

theorem eTriple (w0 w1 w2 : Byte) : Statement (.eTriple w0 w1 w2) := rfl

theorem eSingle (w0 : Byte) (w1 : Option Byte) : Statement (.eSingle w0 w1) := rfl

theorem dSkipLb (s : Scalar) : Statement (.dSkipLb s) := rfl

theorem dApair (hasNext : BitVec 1) (cls1 : ClassCode) (k : BitVec 2) (s : Scalar) : Statement (.dApair hasNext cls1 k s) := rfl

theorem dTriple (s : Scalar) : Statement (.dTriple s) := rfl

theorem dRun (s : Scalar) : Statement (.dRun s) := rfl

theorem dSs (s : Scalar) : Statement (.dSs s) := rfl

theorem dLast (cls1 : ClassCode) : Statement (.dLast cls1) := rfl

theorem dErrPair (cls1 cls0 : ClassCode) (s : Scalar) : Statement (.dErrPair cls1 cls0 s) := rfl

theorem dErrLone (cls1 cls0 : ClassCode) : Statement (.dErrLone cls1 cls0) := rfl

theorem encPush (x : Byte) : Statement (.encPush x) := rfl

theorem encEnd (data : Byte) : Statement (.encEnd data) := rfl

theorem decPush (s : Scalar) : Statement (.decPush s) := rfl

theorem decEnd (data : Scalar) : Statement (.decEnd data) := rfl

theorem encStart (reserved : BitVec 31) : Statement (.encStart reserved) := rfl

theorem decStart (cmode : BitVec 1) (reserved : BitVec 30) : Statement (.decStart cmode reserved) := rfl

theorem wrreg (n : BitVec 4) (v : HostWord) : Statement (.wrreg n v) := rfl

theorem rdreg (n : BitVec 4) (wdata : HostWord) : Statement (.rdreg n wdata) := rfl

theorem reset : Statement (.reset) := rfl

end Sys2Proof.Laws.Port
end

