-- ==== Sys2Proof/Tests/Slice0.lean ====
section
/-! SUPPORT. The tests: an ill-formed term for each check of WellFormed, a written-out word for each constructor, single
steps on small states with results taken from spec/95_test_vectors.md (S, P, E, D, X and H are its vector names), and for
each statement with hypotheses a state and operands that meet them. -/

namespace Sys2Proof.Tests

open Sys2Proof Sys2Proof.Machine

/-! ### Small states -/

/-- The outcome is a next state of which `p` holds. -/
def next (r : Result) (p : State → Bool) : Bool :=
  match r with
  | .next t => p t
  | .fault _ => false
  | .refused _ => false

/-- The action answers this PRIM result after reset. -/
def gives (i : Instr) (r0 r1 r2 : Scalar) (rerr : RErr) : Bool :=
  next (exec i State.reset) (fun t => t.resp == .prim ⟨r0, r1, r2, rerr⟩)

/-- ENC BUSY in WIN mode, holding `n` bytes. -/
def win (n : BitVec 2) (w0 w1 : Byte) : State :=
  { State.reset with enc := { Enc.reset with phase := .busy, wcnt := n, w0 := w0, w1 := w1, inCount := n.setWidth 32 } }

/-- ENC BUSY counting a run. -/
def run (rb : Byte) (rc : BitVec 12) : State :=
  { State.reset with
    enc := { Enc.reset with phase := .busy, mode := .run, rb := rb, rc := rc, inCount := rc.setWidth 32 } }

/-- ENC after a transaction. -/
def encDone : State := { State.reset with enc := { Enc.reset with phase := .done } }

/-- DEC in a phase, with nothing pending. -/
def dec (ph : DecPhase) : State := { State.reset with dec := { Dec.reset with phase := ph } }

/-- DEC BUSY with `p` pending since index 0. -/
def pend (p : Scalar) : State :=
  { State.reset with
    dec := { Dec.reset with phase := .busy, pv := true, p := p, pc := cls Build.standard.lbSet p, idx := 1#32 } }

/-- DEC draining after the error of vector X5. -/
def drained : State :=
  { State.reset with
    dec := { Dec.reset with phase := .drain, idx := 2#32, err := true, errKind := .pair, errSel := 0x4A#7 } }

/-- The state with these beats as the host's program. -/
def prog (s : State) (l : List Beat) : State := { s with inputs := l }

/-- The stream and the answer of an ENC action. -/
def encGives (i : Instr) (s : State) (out : List Scalar) : Bool :=
  next (exec i s) (fun t => t.enc.out == out && t.resp == .accepted)

/-- The stream, the answer and PV after a DEC action. -/
def decGives (i : Instr) (s : State) (out : List Byte) (pv : Bool) : Bool :=
  next (exec i s) (fun t => t.dec.out == out && t.dec.pv == pv && t.resp == .accepted)

/-- A register read after an action. -/
def reads (r : Result) (n : BitVec 4) (v : HostWord) : Bool := next r (fun t => view t n == v)

/-! ### WellFormed: each check refuses an ill-formed term -/

theorem test_wf_eRun : (Instr.eRun 1#8 1#8 2#8).wellFormed = false := by decide
theorem test_wf_eApair : (Instr.eApair 0x41#8 0x80#8 none).wellFormed = false := by decide
theorem test_wf_eApair_run : (Instr.eApair 0x41#8 0x41#8 (some 0x41#8)).wellFormed = false := by decide
theorem test_wf_eTriple : (Instr.eTriple 0x41#8 0x42#8 0x80#8).wellFormed = false := by decide
theorem test_wf_eSingle : (Instr.eSingle 0x41#8 (some 0x42#8)).wellFormed = false := by decide
theorem test_wf_dSkipLb : (Instr.dSkipLb 0x0400#21).wellFormed = false := by decide
theorem test_wf_dApair_lookahead : (Instr.dApair 0#1 1#3 0#2 0x5E00#21).wellFormed = false := by decide
theorem test_wf_dApair_class : (Instr.dApair 1#1 1#3 1#2 0x5E00#21).wellFormed = false := by decide
theorem test_wf_dTriple : (Instr.dTriple 0x5E00#21).wellFormed = false := by decide
theorem test_wf_dRun : (Instr.dRun 0x0400#21).wellFormed = false := by decide
theorem test_wf_dSs : (Instr.dSs 0x4E00#21).wellFormed = false := by decide
theorem test_wf_dLast : (Instr.dLast 1#3).wellFormed = false := by decide
theorem test_wf_dErrPair : (Instr.dErrPair 2#3 2#3 0x4E00#21).wellFormed = false := by decide
theorem test_wf_dErrPair_class : (Instr.dErrPair 1#3 2#3 0x4E00#21).wellFormed = false := by decide
theorem test_wf_dErrLone : (Instr.dErrLone 0#3 1#3).wellFormed = false := by decide
theorem test_wf_dErrLone_lookahead : (Instr.dErrLone 2#3 0#3).wellFormed = false := by decide
theorem test_wf_wrreg_is_start : (Instr.wrreg 0#4 1#32).wellFormed = false := by decide
theorem test_wf_wrreg_is_dec_start : (Instr.wrreg 4#4 3#32).wellFormed = false := by decide

/-! ### Decoding: words written from R83-R90 and R97; the PW words are those of Program 4 -/

theorem test_decode_class : decode (.prim 0x00000280000000000#67) = .ok (.primClass 0xA#21 0#21 0#21) := by decide
theorem test_decode_b2u8 : decode (.prim 0x08004000000000000#67) = .ok (.primB2u8 0x100#21 0#21 0#21) := by decide
theorem test_decode_u82b :
    decode (.prim (0b0010#4 ++ 0x4AA#21 ++ 0#21 ++ 0#21)) = .ok (.primU82b 0x4AA#21 0#21 0#21) := by decide
theorem test_decode_n2u12 : decode (.prim 0x1802AF00000000000#67) = .ok (.primN2u12 0xABC#21 0#21 0#21) := by decide
theorem test_decode_u122n :
    decode (.prim (0b0100#4 ++ 0x5DFF#21 ++ 0#21 ++ 0#21)) = .ok (.primU122n 0x5DFF#21 0#21 0#21) := by decide
theorem test_decode_tpack :
    decode (.prim 0x28002AC0019A000EF#67) = .ok (.primTpack 0xAB#21 0xCD#21 0xEF#21) := by decide
theorem test_decode_tunpack :
    decode (.prim 0x3002AF001BDE00000#67) = .ok (.primTunpack 0xABC#21 0xDEF#21 0#21) := by decide
theorem test_decode_apack : decode (.prim 0x3800120000D200000#67) = .ok (.primApack 0x48#21 0x69#21 0#21) := by decide
theorem test_decode_aunpack : decode (.prim 0x40240A40000000000#67) = .ok (.primAunpack 0x9029#21 0#21 0#21) := by decide
theorem test_decode_rpack : decode (.prim 0x48003FC0000800000#67) = .ok (.primRpack 0xFF#21 4#21 0#21) := by decide
theorem test_decode_runpack :
    decode (.prim 0x50013FC09C0800000#67) = .ok (.primRunpack 0x4FF#21 0x4E04#21 0#21) := by decide
theorem test_decode_reserved_b :
    decode (.prim 0x58000040000400003#67) = .ok (.primReservedB 1#21 2#21 3#21) := by decide
theorem test_decode_reserved_f :
    decode (.prim (0xF#4 ++ 0#21 ++ 0#21 ++ 0#21)) = .ok (.primReservedCF 3#2 0#21 0#21 0#21) := by decide
theorem test_decode_eRun :
    decode (.encSel 0b11100#5 0xFF#8 0xFF#8 0xFF#8) = .ok (.eRun 0xFF#8 0xFF#8 0xFF#8) := by decide
/-- Program 1: ESEL 0b11011. -/
theorem test_decode_eApair :
    decode (.encSel 0b11011#5 0x48#8 0x69#8 0xFF#8) = .ok (.eApair 0x48#8 0x69#8 (some 0xFF#8)) := by decide
theorem test_decode_eApair_two :
    decode (.encSel 0b01011#5 0x41#8 0x42#8 0#8) = .ok (.eApair 0x41#8 0x42#8 none) := by decide
theorem test_decode_eTriple :
    decode (.encSel 0b11001#5 0x41#8 0x80#8 0x41#8) = .ok (.eTriple 0x41#8 0x80#8 0x41#8) := by decide
theorem test_decode_eSingle :
    decode (.encSel 0b01010#5 0x80#8 0x41#8 0#8) = .ok (.eSingle 0x80#8 (some 0x41#8)) := by decide
theorem test_decode_eSingle_one : decode (.encSel 0b00001#5 0x41#8 0#8 0#8) = .ok (.eSingle 0x41#8 none) := by decide
theorem test_decode_esel_unformable : decode (.encSel 0b10000#5 0#8 0#8 0#8) = .error .eselUnformable := by decide
theorem test_decode_dSkipLb : decode (.decFilter 0b011#3 0xA#21) = .ok (.dSkipLb 0xA#21) := by decide
theorem test_decode_filter_other : decode (.decFilter 0b001#3 0x400#21) = .error .notALineBreak := by decide
theorem test_decode_dApair :
    decode (.decSel 0b1001111#7 0x9485#21) = .ok (.dApair 1#1 1#3 3#2 0x9485#21) := by decide
theorem test_decode_dTriple : decode (.decSel 0b1010010#7 0x4E34#21) = .ok (.dTriple 0x4E34#21) := by decide
theorem test_decode_dRun : decode (.decSel 0b1010001#7 0x4E05#21) = .ok (.dRun 0x4E05#21) := by decide
theorem test_decode_dSs : decode (.decSel 0b1001001#7 0x4FF#21) = .ok (.dSs 0x4FF#21) := by decide
theorem test_decode_dLast : decode (.decSel 0b0000001#7 0#21) = .ok (.dLast 0#3) := by decide
/-- Vector X5: ERR_SEL 0x4A. -/
theorem test_decode_dErrPair : decode (.decSel 0x4A#7 0x400#21) = .ok (.dErrPair 1#3 2#3 0x400#21) := by decide
/-- Vector X1: ERR_SEL 0x02. -/
theorem test_decode_dErrLone : decode (.decSel 0x02#7 0#21) = .ok (.dErrLone 0#3 2#3) := by decide
theorem test_decode_encPush : decode (.encIn 0x048#9) = .ok (.encPush 0x48#8) := by decide
theorem test_decode_encEnd : decode (.encIn 0x100#9) = .ok (.encEnd 0#8) := by decide
theorem test_decode_decPush : decode (.decIn 0x009029#22) = .ok (.decPush 0x9029#21) := by decide
theorem test_decode_decEnd : decode (.decIn 0x200000#22) = .ok (.decEnd 0#21) := by decide
theorem test_decode_encStart : decode (.reg 0x1000000001#37) = .ok (.encStart 0#31) := by decide
theorem test_decode_decStart_emit : decode (.reg 0x1400000001#37) = .ok (.decStart 0#1 0#30) := by decide
theorem test_decode_decStart_count : decode (.reg 0x1400000003#37) = .ok (.decStart 1#1 0#30) := by decide
/-- Vector H13: `WRREG 1, 0xFFFFFFFF`. -/
theorem test_decode_wrreg : decode (.reg 0x11FFFFFFFF#37) = .ok (.wrreg 1#4 0xFFFFFFFF#32) := by decide
theorem test_decode_rdreg : decode (.reg 0x0900000000#37) = .ok (.rdreg 9#4 0#32) := by decide
theorem test_decode_reset : decode (.rst 1#1) = .ok .reset := by decide
theorem test_decode_no_reset : decode (.rst 0#1) = .error .resetNotAsserted := by decide
/-- The table's row DEC.END, in whole bytes. -/
theorem test_table_word : decodeTableWord 24 0x200000 = some (.decEnd 0#21) := by decide
theorem test_table_word_fetched :
    (State.reset.withFetchWord 24 0x200000).inputs = [.decIn 0x200000#22] := by decide

/-! ### PRIM (vectors P-CLASS and after) -/

theorem test_class_below_u8 : gives (.primClass 0x3FF#21 0#21 0#21) 0#21 0#21 0#21 .ok = true := by decide
theorem test_class_top_a11 : gives (.primClass 0x9DFF#21 0#21 0#21) 7#21 0#21 0#21 .ok = true := by decide
theorem test_b2u8 : gives (.primB2u8 0xFF#21 0#21 0#21) 0x4FF#21 0#21 0#21 .ok = true := by decide
theorem test_b2u8_range : gives (.primB2u8 0x100#21 0#21 0#21) 0#21 0#21 0#21 .range = true := by decide
theorem test_u82b : gives (.primU82b 0x4AA#21 0#21 0#21) 0xAA#21 0#21 0#21 .ok = true := by decide
theorem test_u82b_range : gives (.primU82b 0x500#21 0#21 0#21) 0#21 0#21 0#21 .range = true := by decide
theorem test_n2u12 : gives (.primN2u12 0xFFF#21 0#21 0#21) 0x5DFF#21 0#21 0#21 .ok = true := by decide
theorem test_n2u12_range : gives (.primN2u12 0x1000#21 0#21 0#21) 0#21 0#21 0#21 .range = true := by decide
theorem test_u122n : gives (.primU122n 0x5DFF#21 0#21 0#21) 0xFFF#21 0#21 0#21 .ok = true := by decide
theorem test_u122n_range : gives (.primU122n 0x5E00#21 0#21 0#21) 0#21 0#21 0#21 .range = true := by decide
theorem test_tpack : gives (.primTpack 0x12#21 0x34#21 0x56#21) 0x123#21 0x456#21 0#21 .ok = true := by decide
theorem test_tpack_range : gives (.primTpack 0x100#21 0#21 0#21) 0#21 0#21 0#21 .range = true := by decide
theorem test_tunpack : gives (.primTunpack 0x123#21 0x456#21 0#21) 0x12#21 0x34#21 0x56#21 .ok = true := by decide
theorem test_tunpack_range : gives (.primTunpack 0x1000#21 0#21 0#21) 0#21 0#21 0#21 .range = true := by decide
theorem test_apack_block01 : gives (.primApack 0x3F#21 0x40#21 0#21) 0x7DC0#21 0#21 0#21 .ok = true := by decide
theorem test_apack_range : gives (.primApack 0x80#21 0#21 0#21) 0#21 0#21 0#21 .range = true := by decide
theorem test_aunpack_block10 : gives (.primAunpack 0x8CAC#21 0#21 0#21) 0x7A#21 0x2C#21 0#21 .ok = true := by decide
theorem test_aunpack_range : gives (.primAunpack 0x9E00#21 0#21 0#21) 0#21 0#21 0#21 .range = true := by decide
theorem test_rpack_zero : gives (.primRpack 0x41#21 0#21 0#21) 0x441#21 0x4E00#21 0#21 .ok = true := by decide
theorem test_rpack_range : gives (.primRpack 0#21 4096#21 0#21) 0#21 0#21 0#21 .range = true := by decide
theorem test_runpack : gives (.primRunpack 0x4FF#21 0x4E04#21 0#21) 0xFF#21 4#21 0#21 .ok = true := by decide
theorem test_runpack_range : gives (.primRunpack 0x4FF#21 0x400#21 0#21) 0#21 0#21 0#21 .range = true := by decide
theorem test_reserved_b : gives (.primReservedB 1#21 2#21 3#21) 0#21 0#21 0#21 .illegal = true := by decide
theorem test_reserved_f : gives (.primReservedCF 3#2 0#21 0#21 0#21) 0#21 0#21 0#21 .illegal = true := by decide

/-! ### ENC (Program 1, vectors E and the streaming corner cases) -/

theorem test_eRun : next (exec (.eRun 0xFF#8 0xFF#8 0xFF#8) (win 2#2 0xFF#8 0xFF#8))
    (fun t => t.enc.mode == .run && t.enc.rb == 0xFF#8 && t.enc.rc == 3#12 && t.enc.out == []) = true := by decide
theorem test_eApair_keeps_third : next (exec (.eApair 0x48#8 0x69#8 (some 0xFF#8)) (win 2#2 0x48#8 0x69#8))
    (fun t => t.enc.out == [0x9029#21] && t.enc.wcnt == 1#2 && t.enc.w0 == 0xFF#8) = true := by decide
theorem test_eTriple : encGives (.eTriple 0x80#8 0x81#8 0x82#8) (win 2#2 0x80#8 0x81#8) [0x5608#21, 0x4F82#21] = true := by
  decide
theorem test_eSingle_keeps_second : next (exec (.eSingle 0x80#8 (some 0x41#8)) (win 2#2 0x80#8 0x41#8))
    (fun t => t.enc.out == [0x480#21] && t.enc.wcnt == 1#2 && t.enc.w0 == 0x41#8) = true := by decide
theorem test_encPush_closes_run : encGives (.encPush 0x42#8) (run 0x41#8 3#12) [0x441#21, 0x4E03#21] = true := by decide
theorem test_encPush_cuts_full_run : next (exec (.encPush 0x41#8) (run 0x41#8 4095#12))
    (fun t => t.enc.out == [0x441#21, 0x5DFF#21] && t.enc.wcnt == 1#2 && t.enc.w0 == 0x41#8) = true := by decide
theorem test_encEnd_two_singles : encGives (.encEnd 0#8) (win 2#2 0x80#8 0x41#8) [0x480#21, 0x441#21] = true := by decide
theorem test_encEnd_pair : encGives (.encEnd 0#8) (win 2#2 0x7F#8 0x7F#8) [0x9DFF#21] = true := by decide
/-- Vector H3. -/
theorem test_encStart : reads (exec (.encStart 0#31) State.reset) 1#4 1#32 = true := by decide
/-- Vector H4. -/
theorem test_encStart_ignored : reads (exec (.encStart 0#31) (win 1#2 0x41#8 0#8)) 2#4 1#32 = true := by decide

/-! ### DEC (vectors D, X) -/

theorem test_dSkipLb : decGives (.dSkipLb 0xD#21) (pend 0x441#21) [] true = true := by decide
theorem test_dApair : decGives (.dApair 0#1 0#3 3#2 0x9485#21) (dec .busy) [0x5A#8, 0x45#8] false = true := by decide
theorem test_dTriple : decGives (.dTriple 0x4E34#21) (pend 0x4E12#21) [0x01#8, 0x20#8, 0x34#8] false = true := by decide
theorem test_dRun : decGives (.dRun 0x4E03#21) (pend 0x4FF#21) [0xFF#8, 0xFF#8, 0xFF#8] false = true := by decide
theorem test_dRun_zero : decGives (.dRun 0x4E00#21) (pend 0x441#21) [] false = true := by decide
theorem test_dSs : decGives (.dSs 0x4FF#21) (pend 0x400#21) [0x00#8, 0xFF#8] false = true := by decide
theorem test_dLast : decGives (.dLast 0#3) (pend 0x4FF#21) [0xFF#8] false = true := by decide
/-- Vectors X5 and H7: DRAIN with PAIR. -/
theorem test_dErrPair : reads (exec (.dErrPair 1#3 2#3 0x400#21) (pend 0x4E00#21)) 5#4 0x0E#32 = true := by decide
/-- Vector X1: the selector of a lone U12. -/
theorem test_dErrLone : reads (exec (.dErrLone 0#3 2#3) (pend 0x4E00#21)) 9#4 0x02#32 = true := by decide
/-- Vector X15: the selector of U8 then U12a(11). -/
theorem test_decPush_error : reads (exec (.decPush 0x9485#21) (pend 0x441#21)) 9#4 0x79#32 = true := by decide
theorem test_decPush_holds : decGives (.decPush 0x4E00#21) (dec .busy) [] true = true := by decide
/-- Vector X1: DONE with LONE. -/
theorem test_decEnd_lone : reads (exec (.decEnd 0#21) (pend 0x4E00#21)) 5#4 0x17#32 = true := by decide
/-- Vector H10: DONE with PAIR. -/
theorem test_decEnd_drain : reads (exec (.decEnd 0#21) drained) 5#4 0x0F#32 = true := by decide
/-- Vector H6. -/
theorem test_decStart_count : reads (exec (.decStart 1#1 0#30) State.reset) 5#4 0x41#32 = true := by decide
/-- Vector H8. -/
theorem test_decStart_ignored : reads (exec (.decStart 0#1 0#30) drained) 5#4 0x0E#32 = true := by decide

/-! ### The host's actions (vectors H) -/

/-- Vector H12. -/
theorem test_wrreg_ignored : reads (exec (.wrreg 4#4 3#32) (dec .busy)) 5#4 1#32 = true := by decide
/-- Vector H13. -/
theorem test_wrreg_reserved : reads (exec (.wrreg 12#4 5#32) State.reset) 12#4 0#32 = true := by decide
theorem test_rdreg : next (exec (.rdreg 5#4 0#32) drained) (fun t => t.resp == .rdata 0x0E#32) = true := by decide
/-- Vector H5. -/
theorem test_reset : reads (exec .reset (win 1#2 0x41#8 0#8)) 2#4 0#32 = true := by decide
/-- Vector H2: the beat is not accepted, and the host holds it. -/
theorem test_push_outside : next (step (prog State.reset [.encIn 0x041#9]))
    (fun t => t.resp == .notAccepted && t.held == [.encIn 0x041#9] && t.enc == Enc.reset) = true := by decide
/-- The batch function on "Hi!!!!" (vector E20). -/
theorem test_encode_E20 : encodeBytes [0x48#8, 0x69#8, 0x21#8, 0x21#8, 0x21#8, 0x21#8]
    = [0x9029#21, 0x421#21, 0x4E04#21] := by decide

/-! ### Witnesses: the hypotheses of each statement, met together -/

theorem witness_DecodeInvertsEncode :
    (Instr.eRun 0x80#8 0x80#8 0x80#8).WellFormed ∧ (Instr.eApair 0x7F#8 0x7F#8 (some 0x80#8)).WellFormed ∧
    (Instr.eTriple 0x80#8 0#8 0#8).WellFormed ∧ (Instr.eSingle 0x7F#8 (some 0x80#8)).WellFormed ∧
    (Instr.dSkipLb 0xA#21).WellFormed ∧ (Instr.dApair 0#1 0#3 3#2 0x9DFF#21).WellFormed ∧
    (Instr.dTriple 0x5DFF#21).WellFormed ∧ (Instr.dRun 0x4E00#21).WellFormed ∧ (Instr.dSs 0x4FF#21).WellFormed ∧
    (Instr.dLast 0#3).WellFormed ∧ (Instr.dErrPair 7#3 1#3 0x9485#21).WellFormed ∧
    (Instr.dErrLone 0#3 2#3).WellFormed ∧ (Instr.wrreg 4#4 2#32).WellFormed ∧ Instr.reset.WellFormed := by decide

theorem witness_EncodeInvertsHostDecode :
    Beat.isHost (.reg 0x1400000003#37) = true ∧ decode (.reg 0x1400000003#37) = .ok (.decStart 1#1 0#30) := by decide

/-- A value at the edge of each clause. -/
theorem witness_ClassesFollowTheRanges :
    cls [0xA#21] 0x4FF#21 = 1#3 ∧ cls [0xA#21] 0x5DFF#21 = 2#3 ∧ cls [0xA#21] 0x8E00#21 = BitVec.ofNat 3 (4 + 3) ∧
    cls [0xA#21] 0xA#21 = 3#3 ∧ cls [0xA#21] 0x9E00#21 = 0#3 := by decide

theorem witness_PackingInverseLaws : 0x5E00 ≤ (0x5E00#21 : Scalar).toNat ∧ (0x9DFF#21 : Scalar).toNat ≤ 0x9DFF := by
  decide

theorem witness_PrimEvaluationIsPure :
    unitOf (.primReservedCF 0#2 0#21 0#21 0#21) = .prim ∧ State.reset.build.lbSet = [0xA#21, 0xD#21] := by decide

theorem witness_EncStartOpensATransaction :
    (win 0#2 0#8 0#8).enc.phase = .busy ∧ State.reset.enc.phase ≠ .busy ∧ encDone.enc.phase ≠ .busy := by decide

theorem witness_EncPushFillsTheWindow :
    (win 0#2 0#8 0#8).enc.phase = .busy ∧ (win 0#2 0#8 0#8).enc.mode = .win ∧ (win 0#2 0#8 0#8).enc.wcnt = 0#2 ∧
    (win 1#2 0#8 0#8).enc.phase = .busy ∧ (win 1#2 0#8 0#8).enc.mode = .win ∧ (win 1#2 0#8 0#8).enc.wcnt = 1#2 := by
  decide

/-- The three branches at 0x7F and 0x80, the last byte free. -/
theorem witness_EncPushDecidesAFullWindow :
    (win 2#2 0x7F#8 0x7F#8).enc.phase = .busy ∧ (win 2#2 0x7F#8 0x7F#8).enc.mode = .win ∧
    (win 2#2 0x7F#8 0x7F#8).enc.wcnt = 2#2 ∧ (win 2#2 0x7F#8 0x7F#8).enc.w0.toNat < 128 ∧
    ¬ (win 2#2 0x7F#8 0x80#8).enc.w1.toNat < 128 := by decide

theorem witness_EncPushExtendsOrClosesARun :
    (run 0x41#8 4094#12).enc.phase = .busy ∧ (run 0x41#8 4094#12).enc.mode = .run ∧
    (run 0x41#8 4094#12).enc.rc.toNat < 4095 ∧ ¬ (run 0x41#8 4095#12).enc.rc.toNat < 4095 := by decide

theorem witness_EncEndFlushesWhatIsHeld :
    (run 0x41#8 3#12).enc.phase = .busy ∧ (run 0x41#8 3#12).enc.mode = .run ∧
    (win 0#2 0#8 0#8).enc.wcnt = 0#2 ∧ (win 1#2 0#8 0#8).enc.wcnt = 1#2 ∧
    (win 2#2 0x7F#8 0x80#8).enc.phase = .busy ∧ (win 2#2 0x7F#8 0x80#8).enc.mode = .win ∧
    (win 2#2 0x7F#8 0x80#8).enc.wcnt = 2#2 := by decide

theorem witness_ERunOpensARun : (win 2#2 5#8 5#8).enc.phase = .busy ∧ (win 2#2 5#8 5#8).enc.mode = .win := by decide

theorem witness_EApairEmitsOneScalar :
    (win 2#2 0x7F#8 0#8).enc.phase = .busy ∧ (win 2#2 0x7F#8 0#8).enc.mode = .win ∧ (0x7F#8 : Byte).toNat < 128 ∧
    (0#8 : Byte).toNat < 128 ∧ ¬ ((0x7F#8 : Byte) = 0#8 ∧ (0#8 : Byte) = 0xFF#8) := by decide

theorem witness_ETripleEmitsTwoScalars :
    (win 2#2 0x7F#8 0x80#8).enc.phase = .busy ∧ (win 2#2 0x7F#8 0x80#8).enc.mode = .win ∧
    ¬ ((0x7F#8 : Byte) = 0x80#8 ∧ (0x80#8 : Byte) = 0x80#8) ∧
    ¬ ((0x7F#8 : Byte).toNat < 128 ∧ (0x80#8 : Byte).toNat < 128) := by decide

theorem witness_ESingleEmitsOneScalar :
    (win 2#2 0x7F#8 0x80#8).enc.phase = .busy ∧ (win 2#2 0x7F#8 0x80#8).enc.mode = .win ∧
    ¬ ((0x7F#8 : Byte).toNat < 128 ∧ (0x80#8 : Byte).toNat < 128) := by decide

theorem witness_EncTransactionComputesEncode :
    buildValid Build.standard = true ∧ encDone.enc.phase ≠ .busy ∧
    (prog encDone (encTxn [0x41#8] ++ [.rst 1#1])).inputs = encTxn [0x41#8] ++ [.rst 1#1] := by decide

/-- Two non-ASCII bytes, which encode to two singles (vector E8). -/
theorem witness_EncodeNeverLengthens : (encodeBytes [0x80#8, 0x80#8]).length = [0x80#8, 0x80#8].length := by decide

theorem witness_EncodeCutsLongRuns : 4094 < 4095 ∧ 3 ≤ 3 ∧ 3 < 4095 := by decide

theorem witness_DecStartOpensATransaction :
    (dec .busy).dec.phase = .busy ∧ drained.dec.phase = .drain ∧ State.reset.dec.phase = .idle ∧
    (dec .done).dec.phase = .done := by decide

/-- The greatest count of a build with the narrowest counters. -/
theorem witness_DecodedBytesAreEmittedAndCounted :
    buildValid ⟨1, []⟩ = true ∧ ({ Dec.reset with outCount := 1#32 } : Dec).outCount.toNat < 2 ^ 1 := by decide

theorem witness_LineBreaksChangeNoRegister :
    (pend 0x441#21).dec.phase = .busy ∧ cls (pend 0x441#21).build.lbSet 0xA#21 = 3#3 := by decide

theorem witness_DecPushHoldsOrUnpacks :
    (dec .busy).dec.phase = .busy ∧ (dec .busy).dec.pv = false ∧ cls (dec .busy).build.lbSet 0x9DFF#21 ≠ 3#3 ∧
    cls (dec .busy).build.lbSet 0x9E00#21 ≠ 3#3 := by decide

/-- The pairs of the four branches: U12 U12, U8 U12, U8 U8, and U12 U8. -/
theorem witness_DecPushClassifiesThePair :
    (pend 0x5DFF#21).dec.phase = .busy ∧ (pend 0x5DFF#21).dec.pv = true ∧
    (pend 0x5DFF#21).dec.pc.getLsbD 2 = false ∧ cls (pend 0x5DFF#21).build.lbSet 0x4E00#21 ≠ 3#3 ∧
    decRow (selWord 1#1 (cls [] 0x4E00#21) (pend 0x5DFF#21).dec.pc) = .triple ∧
    decRow (selWord 1#1 (cls [] 0x4E00#21) (pend 0x4FF#21).dec.pc) = .run ∧
    decRow (selWord 1#1 (cls [] 0x400#21) (pend 0x4FF#21).dec.pc) = .ss ∧
    decRow (selWord 1#1 (cls [] 0x400#21) (pend 0x4E00#21).dec.pc) = .errPair := by decide

theorem witness_DecPushIsDiscardedInDrain : drained.dec.phase = .drain := by decide

theorem witness_DecEndFinishes :
    drained.dec.phase = .drain ∧ ((dec .busy).dec.phase = .busy ∧ (dec .busy).dec.pv = false) ∧
    ((pend 0x4FF#21).dec.phase = .busy ∧ (pend 0x4FF#21).dec.pv = true ∧ (pend 0x4FF#21).dec.pc = 1#3) ∧
    ((pend 0x500#21).dec.phase = .busy ∧ (pend 0x500#21).dec.pv = true ∧ (pend 0x500#21).dec.pc ≠ 1#3) := by decide

theorem witness_DApairGivesTwoBytes :
    (dec .busy).dec.phase = .busy ∧ (dec .busy).dec.pv = false ∧
    0x5E00 + 4096 * (3#2 : BitVec 2).toNat ≤ (0x9DFF#21 : Scalar).toNat ∧
    (0x9DFF#21 : Scalar).toNat < 0x6E00 + 4096 * (3#2 : BitVec 2).toNat := by decide

theorem witness_DecoderPendingRowsDecode :
    (pend 0x4E00#21).dec.phase = .busy ∧ (pend 0x4E00#21).dec.pv = true ∧ (pend 0x4E00#21).dec.pc = 2#3 ∧
    (pend 0x4FF#21).dec.phase = .busy ∧ (pend 0x4FF#21).dec.pv = true ∧ (pend 0x4FF#21).dec.pc = 1#3 ∧
    (0x4E00 ≤ (0x5DFF#21 : Scalar).toNat ∧ (0x5DFF#21 : Scalar).toNat ≤ 0x5DFF) ∧
    (0x0400 ≤ (0x4FF#21 : Scalar).toNat ∧ (0x4FF#21 : Scalar).toNat ≤ 0x04FF) := by decide

theorem witness_DecoderErrorRowsDrain :
    (pend 0x4E00#21).dec.phase = .busy ∧ (pend 0x4E00#21).dec.pv = true ∧
    cls (pend 0x4E00#21).build.lbSet 0x400#21 ≠ 3#3 ∧
    decRow (selWord 1#1 (cls (pend 0x4E00#21).build.lbSet 0x400#21) (pend 0x4E00#21).dec.pc) = .errPair ∧
    (pend 0x4E00#21).dec.pc = 2#3 ∧ (pend 0x9E00#21).dec.pc = 0#3 := by decide

theorem witness_RowsNeedTheirSelector :
    State.reset.enc.phase ≠ .busy ∧ (run 0#8 3#12).enc.mode = .run ∧ (dec .done).dec.phase ≠ .busy ∧
    cls (dec .busy).build.lbSet 0x400#21 ≠ 3#3 ∧ (pend 0x400#21).dec.pv = true ∧
    cls (dec .busy).build.lbSet 0x5DFF#21 ≠ 1#1 ++ 0#2 ∧ (dec .busy).dec.pv = false ∧
    (pend 0x4FF#21).dec.pc ≠ 2#3 ∧ (pend 0x4E00#21).dec.pc ≠ 1#3 ∧ decRow (selWord 1#1 1#3 1#3) ≠ .errPair ∧
    decRow (selWord 0#1 0#3 1#3) ≠ .errLone ∧
    128 ≤ (0x80#8 : Byte).toNat ∧ (0x7F#8 : Byte).toNat < 128 := by decide

/-- A decode error stays through a discarded beat, and a START in DONE is shut out. -/
theorem witness_DecodeErrorStaysUntilStartOrReset :
    ∃ t, exec (.decPush 0x400#21) drained = .next t ∧ drained.dec.err = true ∧ drained.dec.phase = .drain ∧
      Instr.decPush 0x400#21 ≠ .reset ∧ startsDec (.decPush 0x400#21) = false ∧ startsDec (.decStart 0#1 0#30) = true := by
  exact ⟨_, rfl, by decide⟩

theorem witness_DecTransactionComputesDecode :
    buildValid Build.standard = true ∧ State.reset.dec.phase = .idle ∧ (dec .done).dec.phase = .done ∧
    (prog (dec .done) (decTxn .emit [0x4E00#21] ++ [])).inputs = decTxn .emit [0x4E00#21] ++ [] := by decide

theorem witness_CountPassPredictsEmitPass :
    ∃ t, Sys2Proof.core.run 4 (prog State.reset (decTxn .count [0x441#21, 0x4E03#21] ++
        decTxn .emit [0x441#21, 0xA#21, 0x4E03#21])) = .next t ∧ t.dec.err = false ∧
      buildValid Build.standard = true ∧ State.reset.dec.phase = .idle ∧
      stripLineBreaks Build.standard.lbSet [0x441#21, 0x4E03#21]
        = stripLineBreaks Build.standard.lbSet [0x441#21, 0xA#21, 0x4E03#21] := by
  exact ⟨_, rfl, by decide⟩

theorem witness_MachineRoundTripThroughLineBreaks :
    buildValid Build.standard = true ∧ State.reset.enc.phase ≠ .busy ∧ State.reset.dec.phase = .idle ∧
    stripLineBreaks Build.standard.lbSet [0x441#21, 0xD#21, 0xA#21, 0x4E03#21]
      = encodeBytes [0x41#8, 0x41#8, 0x41#8] ∧
    (prog State.reset (encTxn [0x41#8, 0x41#8, 0x41#8] ++ decTxn .emit [0x441#21, 0xD#21, 0xA#21, 0x4E03#21])).inputs
      = encTxn [0x41#8, 0x41#8, 0x41#8] ++ decTxn .emit [0x441#21, 0xD#21, 0xA#21, 0x4E03#21] := by decide

theorem witness_RdregReturnsTheView : (4#4 : BitVec 4) = 4#4 ∧ 10 ≤ (10#4 : BitVec 4).toNat := by decide

theorem witness_WrregOnlyStarts :
    ((1#32 : HostWord).getLsbD 0 = true) ∧ ((3#32 : HostWord).getLsbD 0 = true) ∧
    ((1#4 : BitVec 4) ≠ 0#4 ∧ (1#4 : BitVec 4) ≠ 4#4) ∧ ((2#32 : HostWord).getLsbD 0 = false) := by decide

theorem witness_BeatsOutsideATransactionAreHeld :
    buildValid Build.standard = true ∧ State.reset.enc.phase = .idle ∧ encDone.enc.phase = .done ∧
    State.reset.dec.phase = .idle ∧ (dec .done).dec.phase = .done ∧
    (prog encDone [.encIn 0x100#9]).inputs = [.encIn 0x100#9] ∧
    (prog (dec .done) [.decIn 0#22]).inputs = [.decIn 0#22] := by decide

theorem witness_StepPerformsTheDecodedAction :
    ∃ t, exec (.encPush 0x41#8) { prog State.reset [.encIn 0x041#9] with inputs := [] } = .next t ∧
      buildValid Build.standard = true ∧ decode (.encIn 0x041#9) = .ok (.encPush 0x41#8) ∧
      (prog State.reset [.encIn 0x041#9]).inputs = [.encIn 0x041#9] := by
  exact ⟨_, rfl, by decide⟩

theorem witness_HostStepsNeverStop :
    buildValid Build.standard = true ∧ Beat.isHost (.rst 1#1) = true ∧ Beat.rst 1#1 ≠ .rst 0#1 ∧
    (prog State.reset [.rst 1#1]).inputs = [.rst 1#1] := by decide

theorem witness_EveryActionCompletesInItsUnit :
    unitOf (.primClass 0#21 0#21 0#21) = .prim ∧ unitOf (.eRun 0#8 0#8 0#8) = .enc ∧ unitOf (.dLast 0#3) = .dec := by
  decide

theorem witness_UnitsCommute :
    unitOf (.encPush 0#8) ≠ unitOf (.decPush 0#21) ∧ unitOf (.encPush 0#8) ≠ .host ∧
    unitOf (.decPush 0#21) ≠ .host := by decide

/-- A phase of ENC and a phase of DEC that change. -/
theorem witness_PhasesChangeOnlyAsStated :
    (∃ t, exec (.encEnd 0#8) (win 0#2 0#8 0#8) = .next t ∧ t.enc.phase ≠ (win 0#2 0#8 0#8).enc.phase) ∧
    (∃ t, exec (.decPush 0x400#21) (pend 0x4E00#21) = .next t ∧ t.dec.phase ≠ (pend 0x4E00#21).dec.phase) ∧
    (∃ t, exec (.decStart 1#1 0#30) State.reset = .next t ∧ t.dec.cmode ≠ State.reset.dec.cmode) :=
  ⟨⟨_, rfl, by decide⟩, ⟨_, rfl, by decide⟩, ⟨_, rfl, by decide⟩⟩

theorem witness_StreamsOnlyGrow :
    (∃ t, exec (.encPush 0x42#8) (run 0x41#8 3#12) = .next t ∧ startsEnc (.encPush 0x42#8) = false ∧
      t.enc.out.length = 2) ∧
    (∃ t, exec (.decPush 0x4E03#21) (pend 0x441#21) = .next t ∧ startsDec (.decPush 0x4E03#21) = false ∧
      t.dec.out.length = 3) :=
  ⟨⟨_, rfl, by decide⟩, ⟨_, rfl, by decide⟩⟩

/-- A counter of one bit wraps in a step of a state that meets the invariant. -/
def tight : State :=
  { State.reset with
    build := ⟨1, []⟩
    enc := { Enc.reset with phase := .busy, inCount := 1#32, wcnt := 1#2 }
    dec := { Dec.reset with phase := .busy, idx := 1#32 } }

theorem witness_OverflowRecordsEveryWrap :
    Inv tight ∧ (∃ t, exec (.encPush 0#8) tight = .next t ∧ t.enc.inCount = 0#32 ∧ t.enc.ovf = true) ∧
    (∃ t, exec (.decPush 0x400#21) tight = .next t ∧ t.dec.idx = 0#32 ∧ t.dec.ovf = true) :=
  ⟨by decide, ⟨_, rfl, by decide⟩, ⟨_, rfl, by decide⟩⟩

theorem witness_HoldingKeepsTheScanPosition :
    Inv tight ∧ (∃ t, exec (.encPush 0#8) tight = .next t ∧ t.enc.out = tight.enc.out) ∧
    (∃ t, exec (.decPush 0x400#21) tight = .next t ∧ t.dec.pv = true) :=
  ⟨by decide, ⟨_, rfl, by decide⟩, ⟨_, rfl, by decide⟩⟩

theorem witness_StepKeepsTheInvariant :
    Inv (prog tight [.encIn 0x000#9]) ∧
      ∃ t, step (prog tight [.encIn 0x000#9]) = .next t ∧ t ≠ prog tight [.encIn 0x000#9] :=
  ⟨by decide, _, rfl, by decide⟩

/-- Two states that differ in W1 beyond WCNT and in P while PV = 0, with a step to take. -/
theorem witness_OpenContentsAreUnobservable :
    let s := prog (win 1#2 0x41#8 0#8) [.encIn 0x041#9]
    let t := { s with enc := { s.enc with w1 := 0xFF#8 }, dec := { s.dec with p := 0x400#21 } }
    SameVisible s t ∧ s ≠ t ∧ ∃ s', step s = .next s' :=
  ⟨by decide, by decide, _, rfl⟩

/-- Two machines of different CNT_W, with a step to take. -/
theorem witness_CountersChangeNoOutput :
    let s := prog tight [.encIn 0x041#9]
    let t := { s with build := ⟨2, []⟩, enc := { s.enc with inCount := 3#32, ovf := true } }
    SameButCounters s t ∧ s ≠ t ∧ buildValid s.build = true ∧ buildValid t.build = true ∧ ∃ s', step s = .next s' :=
  ⟨by decide, by decide, by decide, by decide, _, rfl⟩

end Sys2Proof.Tests
end

section
/-! SUPPORT. Laws of the whole machine that several statements use: the ranges of the tokens' scalars, the result of
a PRIM evaluation, and what a step that answers a next state can do. -/

namespace Sys2Proof.Machine

/-! ### Scalars of the token rows -/

theorem inRange_of_u8 {s : Scalar} (h1 : 0x400 ≤ s.toNat) (h2 : s.toNat ≤ 0x4FF) : inRange s = true := by
  have h : 0x0400#21 ≤ s ∧ s ≤ 0x04FF#21 := by bv_omega
  simp [inRange, cls, h]

theorem inRange_of_u12 {s : Scalar} (h1 : 0x4E00 ≤ s.toNat) (h2 : s.toNat ≤ 0x5DFF) : inRange s = true := by
  have hu8 : ¬(0x0400#21 ≤ s ∧ s ≤ 0x04FF#21) := by bv_omega
  have h : 0x4E00#21 ≤ s ∧ s ≤ 0x5DFF#21 := by bv_omega
  simp [inRange, cls, hu8, h]

/-- The block number of a U12a scalar is below 4, so that its class is at least 4. -/
theorem inRange_of_u12a {s : Scalar} (h1 : 0x5E00 ≤ s.toNat) (h2 : s.toNat ≤ 0x9DFF) : inRange s = true := by
  have hu8 : ¬(0x0400#21 ≤ s ∧ s ≤ 0x04FF#21) := by bv_omega
  have hu12 : ¬(0x4E00#21 ≤ s ∧ s ≤ 0x5DFF#21) := by bv_omega
  have h : 0x5E00#21 ≤ s ∧ s ≤ 0x9DFF#21 := by bv_omega
  have hsub : (s - a00Base).toNat = s.toNat - 0x5E00 := by
    unfold a00Base
    bv_omega
  have hblock : 4#3 + ((s - a00Base) >>> 12).setWidth 3 ≠ 0#3 := by
    intro h0
    have h0' := congrArg BitVec.toNat h0
    simp [hsub, Nat.shiftRight_eq_div_pow] at h0'
    omega
  simp [inRange, cls, hu8, hu12, h, hblock]

theorem inRange_toU8 (x : Byte) : inRange (toU8 x) = true := by
  have hx := x.isLt
  have h : (toU8 x).toNat = 0x400 + x.toNat := by
    simp [toU8, u8Base]
    omega
  exact inRange_of_u8 (by omega) (by omega)

theorem inRange_toU12 (n : BitVec 12) : inRange (toU12 n) = true := by
  have hn := n.isLt
  have h : (toU12 n).toNat = 0x4E00 + n.toNat := by
    simp [toU12, u12Base]
    omega
  exact inRange_of_u12 (by omega) (by omega)

theorem inRange_a00Base_add (x : BitVec 14) : inRange (a00Base + x.setWidth 21) = true := by
  have hx := x.isLt
  have h : (a00Base + x.setWidth 21).toNat = 0x5E00 + x.toNat := by
    simp [a00Base]
    omega
  exact inRange_of_u12a (by omega) (by omega)

theorem inRange_apackBytes (x y : Byte) : inRange (apackBytes x y) = true := inRange_a00Base_add _

/-! ### PRIM -/

/-- The result of a PRIM action for an LB_SET; the actions of the other ports have none. -/
def primResult (lb : List Scalar) : Instr → Option PrimResult
  | .primClass a _ _ => some (primClassResult lb a)
  | .primB2u8 a _ _ => some (primB2u8Result a)
  | .primU82b a _ _ => some (primU82bResult lb a)
  | .primN2u12 a _ _ => some (primN2u12Result a)
  | .primU122n a _ _ => some (primU122nResult lb a)
  | .primTpack a b c => some (primTpackResult a b c)
  | .primTunpack a b _ => some (primTunpackResult a b)
  | .primApack a b _ => some (primApackResult a b)
  | .primAunpack a _ _ => some (primAunpackResult lb a)
  | .primRpack a b _ => some (primRpackResult a b)
  | .primRunpack a b _ => some (primRunpackResult lb a b)
  | .primReservedB _ _ _ | .primReservedCF _ _ _ _ => some primIllegal
  | _ => none

theorem exec_of_primResult {i : Instr} {s : State} {r : PrimResult} (h : primResult s.build.lbSet i = some r) :
    exec i s = answer s (.prim r) := by
  cases i <;> cases h <;> rfl

theorem exists_primResult {i : Instr} (h : unitOf i = .prim) (lb : List Scalar) : ∃ r, primResult lb i = some r := by
  cases i <;> cases h <;> exact ⟨_, rfl⟩

/-- What R122 asks of a result: an error gives zeros. -/
def PrimResult.ZeroOnError (r : PrimResult) : Prop := r.rerr ≠ .ok → r.r0 = 0#21 ∧ r.r1 = 0#21 ∧ r.r2 = 0#21

theorem primOk_zeroOnError (x y z : Scalar) : (primOk x y z).ZeroOnError := fun h => absurd rfl h

theorem primRange_zeroOnError : primRange.ZeroOnError := fun _ => ⟨rfl, rfl, rfl⟩

theorem primIllegal_zeroOnError : primIllegal.ZeroOnError := fun _ => ⟨rfl, rfl, rfl⟩

theorem zeroOnError_ite {c : Prop} [Decidable c] {q r : PrimResult} (hq : q.ZeroOnError) (hr : r.ZeroOnError) :
    (if c then q else r).ZeroOnError := by
  split
  · exact hq
  · exact hr

/-- Every PRIM function is a named result, ILLEGAL, or a range check in front of a named result. -/
theorem primResult_zeroOnError {lb : List Scalar} {i : Instr} {r : PrimResult} (h : primResult lb i = some r) :
    r.ZeroOnError := by
  cases i with
  | primClass => cases h; exact primOk_zeroOnError _ _ _
  | primB2u8 | primN2u12 | primTpack | primTunpack | primApack | primRpack =>
    cases h; exact zeroOnError_ite primRange_zeroOnError (primOk_zeroOnError _ _ _)
  | primU82b | primU122n | primAunpack | primRunpack =>
    cases h; exact zeroOnError_ite (primOk_zeroOnError _ _ _) primRange_zeroOnError
  | primReservedB | primReservedCF => cases h; exact primIllegal_zeroOnError
  | _ => cases h

/-- Settles O15: the result is `primResult`, which reads no state but LB_SET. -/
theorem primEvaluationIsPure : Obligations.PrimEvaluationIsPure := by
  intro i lb hi
  obtain ⟨r, hr⟩ := exists_primResult hi lb
  refine ⟨r, primResult_zeroOnError hr, fun s hs => ?_⟩
  subst hs
  exact exec_of_primResult hr

/-! ### A step -/

/-- Putting a beat aside touches the list `held` alone. -/
theorem holdIfNotAccepted_eq_next {b : Beat} {r : Result} {t : State} (h : holdIfNotAccepted b r = .next t) :
    ∃ t', r = .next t' ∧ t = { t' with held := t.held } := by
  cases r with
  | next t' =>
    refine ⟨t', rfl, ?_⟩
    simp only [holdIfNotAccepted] at h
    split at h
    · cases h; rfl
    · cases h; rfl
  | fault => cases h
  | refused => cases h

/-- A step that answers a next state had nothing to do, or performed the host's next action. -/
theorem step_eq_next {s t : State} (h : step s = .next t) :
    (s.inputs = [] ∧ t = s) ∨
    ∃ b rest i t', s.inputs = b :: rest ∧ decode b = .ok i ∧ exec i { s with inputs := rest } = .next t' ∧
      t = { t' with held := t.held } := by
  unfold step at h
  split at h
  case isFalse => cases h
  case isTrue =>
    cases hin : s.inputs with
    | nil =>
      simp only [fetch, hin] at h
      cases h
      exact .inl ⟨rfl, rfl⟩
    | cons b rest =>
      simp only [fetch, hin] at h
      cases hdec : decode b with
      | error => simp [hdec] at h
      | ok i =>
        simp only [hdec] at h
        obtain ⟨t', ht', ht⟩ := holdIfNotAccepted_eq_next h
        exact .inr ⟨b, rest, i, t', rfl, hdec, ht', ht⟩

end Sys2Proof.Machine
end

section
/-! SUPPORT. The invariant of ENC, operation by operation. It falls into what the window and the run register hold and
what the streams and counters hold, because the token actions touch the second part only by emitting. -/

namespace Sys2Proof.Machine

variable {b : Build} {e : Enc}

/-- R32 (a)-(c): the part of ENC's invariant about its modes and its window. -/
structure EncControlOk (e : Enc) : Prop where
  run_mode : e.mode = .run → e.wcnt = 0#2 ∧ 3 ≤ e.rc.toNat ∧ e.rc.toNat ≤ 4095
  win_mode : e.mode = .win → e.wcnt.toNat ≤ 2
  not_busy : e.phase ≠ .busy → e.mode = .win ∧ e.wcnt = 0#2

/-- The part of ENC's invariant about its stream and its counters (R29-R31, R171). -/
structure EncStreamOk (b : Build) (e : Enc) : Prop where
  all_inRange : e.out.all inRange = true
  inCount_lt : e.inCount.toNat < 2 ^ b.cntW
  outCount_eq : e.outCount.toNat = e.out.length % 2 ^ b.cntW
  length_lt : e.ovf = false → e.out.length < 2 ^ b.cntW

/-- The stream part reads the stream, the counts and the overflow bit alone. -/
theorem EncStreamOk.frame {f : Enc} (h : EncStreamOk b e) (hout : f.out = e.out := by rfl)
    (hin : f.inCount = e.inCount := by rfl) (hcount : f.outCount = e.outCount := by rfl)
    (hovf : f.ovf = e.ovf := by rfl) : EncStreamOk b f :=
  ⟨hout ▸ h.all_inRange, hin ▸ h.inCount_lt, by rw [hcount, hout, h.outCount_eq],
    by rw [hovf, hout]; exact h.length_lt⟩

theorem encInv_iff : EncInv b e ↔ EncControlOk e ∧ EncStreamOk b e := by
  constructor
  · rintro ⟨hrun, hwin, hbusy, hout, hin, hcount, hlen⟩
    exact ⟨⟨hrun, hwin, hbusy⟩, ⟨hout, hin, hcount, hlen⟩⟩
  · rintro ⟨⟨hrun, hwin, hbusy⟩, ⟨hout, hin, hcount, hlen⟩⟩
    exact ⟨hrun, hwin, hbusy, hout, hin, hcount, hlen⟩

/-! ### The stream -/

theorem stickyOvf_eq_false {o : Bool} {c : HostWord} : stickyOvf o c = false ↔ o = false ∧ c ≠ 0#32 := by
  simp [stickyOvf]

/-- A counter that has not wrapped to 0 is still the length of its stream. -/
theorem encEmit_streamOk {s : Scalar} (hb : b.cntW ≤ 32) (hs : inRange s = true) (h : EncStreamOk b e) :
    EncStreamOk b (encEmit b e s) := by
  have hcount : (countUp b.cntW e.outCount).toNat = (e.out.length + 1) % 2 ^ b.cntW := by
    rw [countUp_toNat hb, h.outCount_eq, Nat.mod_add_mod]
  refine ⟨?_, h.inCount_lt, by simpa using hcount, fun hovf => ?_⟩
  · simpa [hs] using h.all_inRange
  · obtain ⟨hno, hne⟩ := stickyOvf_eq_false.mp hovf
    have hle : e.out.length + 1 ≤ 2 ^ b.cntW := h.length_lt hno
    have hlt : e.out.length + 1 ≠ 2 ^ b.cntW := by
      intro heq
      rw [heq, Nat.mod_self] at hcount
      exact hne (BitVec.eq_of_toNat_eq hcount)
    simpa using lt_of_le_of_ne hle hlt

theorem countIn_streamOk (hb : b.cntW ≤ 32) (h : EncStreamOk b e) : EncStreamOk b (countIn b e) :=
  ⟨h.all_inRange, countUp_lt hb _, h.outCount_eq, fun hovf => h.length_lt (stickyOvf_eq_false.mp hovf).1⟩

theorem closeRun_streamOk (hb : b.cntW ≤ 32) (h : EncStreamOk b e) : EncStreamOk b (closeRun b e) := by
  have hemit := encEmit_streamOk hb (inRange_toU12 e.rc) (encEmit_streamOk hb (inRange_toU8 e.rb) h)
  exact hemit.frame

theorem tokenAction_streamOk (hb : b.cntW ≤ 32) (h : EncStreamOk b e) (row : EncRow) (w : List Byte) :
    EncStreamOk b (tokenAction b e row w).1 := by
  cases row with
  | run => exact h.frame
  | apair => exact encEmit_streamOk hb (inRange_apackBytes _ _) h
  | triple => exact encEmit_streamOk hb (inRange_toU12 _) (encEmit_streamOk hb (inRange_toU12 _) h)
  | single => exact encEmit_streamOk hb (inRange_toU8 _) h

/-- Deciding a window performs the row it selects; a window that selects none is dropped. -/
theorem decideWindow_cases (b : Build) (e : Enc) (w : List Byte) :
    (∃ row, encRow (esel w) = some row ∧ decideWindow b e w = tokenAction b e row w) ∨
      decideWindow b e w = (e, []) := by
  cases h : encRow (esel w) with
  | some row => exact .inl ⟨row, rfl, decideWindow_of_row h b e⟩
  | none => exact .inr (by simp [decideWindow, h])

theorem decideWindow_streamOk (hb : b.cntW ≤ 32) (h : EncStreamOk b e) (w : List Byte) :
    EncStreamOk b (decideWindow b e w).1 := by
  obtain ⟨row, -, hrow⟩ | hnone := decideWindow_cases b e w
  · rw [hrow]
    exact tokenAction_streamOk hb h row w
  · rw [hnone]
    exact h

theorem keepRest_streamOk (h : EncStreamOk b e) (rest : List Byte) : EncStreamOk b (keepRest e rest) := by
  unfold keepRest
  split
  · exact h.frame
  · exact h

theorem flushWindow_streamOk (hb : b.cntW ≤ 32) (n : Nat) (h : EncStreamOk b e) (w : List Byte) :
    EncStreamOk b (flushWindow b n e w) := by
  induction n generalizing e w with
  | zero => exact h
  | succ n ih =>
    cases w with
    | nil => exact h
    | cons x w => exact ih (decideWindow_streamOk hb h _) _

/-! ### The window -/

theorem keepRest_controlOk {rest : List Byte} (hbusy : e.phase = .busy) (hrest : rest.length ≤ 2)
    (hrun : e.mode = .run → e.wcnt = 0#2 ∧ 3 ≤ e.rc.toNat ∧ e.rc.toNat ≤ 4095) :
    EncControlOk (keepRest e rest) := by
  cases hm : e.mode with
  | run =>
    rw [keepRest_run hm]
    exact ⟨hrun, by simp [hm], fun h => absurd hbusy h⟩
  | win =>
    have hk : keepRest e rest =
        { e with wcnt := BitVec.ofNat 2 rest.length, w0 := if rest.length = 1 then rest.getD 0 0 else e.w0 } := by
      simp [keepRest, hm]
    rw [hk]
    exact ⟨by simp [hm], fun _ => by simp; omega, fun h => absurd hbusy h⟩

/-- A token takes at least one of its window's bytes, so at most two are left over; a run opens with the count 3. -/
theorem keepRest_tokenAction_controlOk (hbusy : e.phase = .busy) (hwin : e.mode = .win) (row : EncRow)
    {w : List Byte} (hw : w.length ≤ 3) :
    EncControlOk (keepRest (tokenAction b e row w).1 (tokenAction b e row w).2) := by
  have hnorun : e.mode = .run → e.wcnt = 0#2 ∧ 3 ≤ e.rc.toNat ∧ e.rc.toNat ≤ 4095 := by simp [hwin]
  cases row with
  | run => exact keepRest_controlOk hbusy (Nat.zero_le 2) fun _ => ⟨rfl, le_refl 3, Nat.le_of_ble_eq_true rfl⟩
  | apair => exact keepRest_controlOk hbusy (by simp [tokenAction, emitApair]; omega) hnorun
  | triple => exact keepRest_controlOk hbusy (Nat.zero_le 2) hnorun
  | single => exact keepRest_controlOk hbusy (by simp [tokenAction, emitSingle]; omega) hnorun

theorem keepRest_decideWindow_controlOk (hbusy : e.phase = .busy) (hwin : e.mode = .win) {w : List Byte}
    (hw : w.length ≤ 3) : EncControlOk (keepRest (decideWindow b e w).1 (decideWindow b e w).2) := by
  obtain ⟨row, -, hrow⟩ | hnone := decideWindow_cases b e w
  · rw [hrow]
    exact keepRest_tokenAction_controlOk hbusy hwin row hw
  · rw [hnone]
    exact keepRest_controlOk hbusy (Nat.zero_le 2) (by simp [hwin])

/-- Bit 4 of ESEL is HAS2 (R83). -/
theorem esel_getLsbD_four (w : List Byte) : (esel w).getLsbD 4 = decide (3 ≤ w.length) := by
  have hbit : ∀ h2 h1 r a1 a0 : Bool, (BitVec.ofBool h2 ++ BitVec.ofBool h1 ++ BitVec.ofBool r ++ BitVec.ofBool a1 ++
      BitVec.ofBool a0).getLsbD 4 = h2 := by decide
  exact hbit _ _ _ _ _

theorem has2_of_encRow_run : ∀ {x : BitVec 5}, encRow x = some .run → x.getLsbD 4 = true := by decide

theorem encRow_esel_ne_run {w : List Byte} (hw : w.length ≤ 2) : encRow (esel w) ≠ some .run := by
  intro h
  have h3 := has2_of_encRow_run h
  rw [esel_getLsbD_four, decide_eq_true_eq] at h3
  omega

/-- A window of one or two bytes opens no run. -/
theorem decideWindow_short {w : List Byte} (hw : w.length ≤ 2) :
    (decideWindow b e w).1.mode = e.mode ∧ (decideWindow b e w).2.length ≤ w.length := by
  obtain ⟨row, hsel, hrow⟩ | hnone := decideWindow_cases b e w
  · rw [hrow]
    cases row with
    | run => exact absurd hsel (encRow_esel_ne_run hw)
    | apair | triple | single => simp [tokenAction, emitApair, emitTriple, emitSingle]
  · simp [hnone]

theorem flushWindow_mode (n : Nat) {w : List Byte} (hw : w.length ≤ 2) : (flushWindow b n e w).mode = e.mode := by
  induction n generalizing e w with
  | zero => rfl
  | succ n ih =>
    cases w with
    | nil => rfl
    | cons x w =>
      obtain ⟨hmode, hlen⟩ := decideWindow_short (b := b) (e := e) hw
      exact (ih (hlen.trans hw)).trans hmode

theorem heldWindow_length_le (e : Enc) : (heldWindow e).length ≤ 2 := by
  simp [heldWindow]

/-! ### The beats -/

theorem pushRun_keeps_encInv (hb : b.cntW ≤ 32) (hbusy : e.phase = .busy) (hrun : e.mode = .run) (h : EncInv b e)
    (x : Byte) : EncInv b (pushRun b e x) := by
  obtain ⟨hc, hs⟩ := encInv_iff.mp h
  obtain ⟨hwcnt, hge, hle⟩ := hc.run_mode hrun
  unfold pushRun
  split
  case isTrue hgrow =>
    have hrc : (e.rc + 1#12).toNat = e.rc.toNat + 1 := by bv_omega
    have hlt : e.rc.toNat < 4095 := by bv_omega
    have hrange : 3 ≤ (e.rc + 1#12).toNat ∧ (e.rc + 1#12).toNat ≤ 4095 := by omega
    exact encInv_iff.mpr ⟨⟨fun _ => ⟨hwcnt, hrange⟩, by simp [hrun], fun hn => absurd hbusy hn⟩, hs.frame⟩
  case isFalse =>
    exact encInv_iff.mpr ⟨⟨by simp, by simp, fun hn => absurd hbusy hn⟩, (closeRun_streamOk hb hs).frame⟩

theorem pushWin_keeps_encInv (hb : b.cntW ≤ 32) (hbusy : e.phase = .busy) (hwin : e.mode = .win) (h : EncInv b e)
    (x : Byte) : EncInv b (pushWin b e x) := by
  obtain ⟨-, hs⟩ := encInv_iff.mp h
  unfold pushWin
  split
  · exact encInv_iff.mpr ⟨⟨by simp [hwin], by simp, fun hn => absurd hbusy hn⟩, hs.frame⟩
  split
  · exact encInv_iff.mpr ⟨⟨by simp [hwin], by simp, fun hn => absurd hbusy hn⟩, hs.frame⟩
  · exact encInv_iff.mpr ⟨keepRest_decideWindow_controlOk hbusy hwin (by simp),
      keepRest_streamOk (decideWindow_streamOk hb hs _) _⟩

theorem countIn_keeps_encInv (hb : b.cntW ≤ 32) (h : EncInv b e) : EncInv b (countIn b e) := by
  obtain ⟨hc, hs⟩ := encInv_iff.mp h
  exact encInv_iff.mpr ⟨⟨hc.run_mode, hc.win_mode, hc.not_busy⟩, countIn_streamOk hb hs⟩

theorem pushByte_run (hm : e.mode = .run) (b : Build) (x : Byte) : pushByte b e x = pushRun b (countIn b e) x := by
  simp [pushByte, hm]

theorem pushByte_win (hm : e.mode = .win) (b : Build) (x : Byte) : pushByte b e x = pushWin b (countIn b e) x := by
  simp [pushByte, hm]

theorem pushByte_keeps_encInv (hb : b.cntW ≤ 32) (hbusy : e.phase = .busy) (h : EncInv b e) (x : Byte) :
    EncInv b (pushByte b e x) := by
  have h' := countIn_keeps_encInv hb h
  cases hm : e.mode with
  | run =>
    rw [pushByte_run hm]
    exact pushRun_keeps_encInv (e := countIn b e) hb hbusy hm h' x
  | win =>
    rw [pushByte_win hm]
    exact pushWin_keeps_encInv (e := countIn b e) hb hbusy hm h' x

theorem endInput_run (hm : e.mode = .run) (b : Build) :
    endInput b e = { closeRun b e with wcnt := 0#2, phase := .done } := by
  simp [endInput, hm]

theorem endInput_win (hm : e.mode = .win) (b : Build) :
    endInput b e = { flushWindow b 2 e (heldWindow e) with wcnt := 0#2, phase := .done } := by
  simp [endInput, hm]

theorem finished_encInv (hm : e.mode = .win) (hs : EncStreamOk b e) :
    EncInv b { e with wcnt := 0#2, phase := .done } :=
  encInv_iff.mpr ⟨⟨by simp [hm], by simp, fun _ => ⟨hm, rfl⟩⟩, hs.frame⟩

/-- ENC.END leaves RUN mode: it closes a run, and what a window holds is too short to open one. -/
theorem endInput_keeps_encInv (hb : b.cntW ≤ 32) (h : EncInv b e) : EncInv b (endInput b e) := by
  obtain ⟨-, hs⟩ := encInv_iff.mp h
  cases hm : e.mode with
  | run =>
    rw [endInput_run hm]
    exact finished_encInv rfl (closeRun_streamOk hb hs)
  | win =>
    rw [endInput_win hm]
    exact finished_encInv ((flushWindow_mode 2 (heldWindow_length_le e)).trans hm) (flushWindow_streamOk hb 2 hs _)

theorem token_keeps_encInv (hb : b.cntW ≤ 32) (hbusy : e.phase = .busy) (hwin : e.mode = .win) (h : EncInv b e)
    (row : EncRow) {w : List Byte} (hw : w.length ≤ 3) :
    EncInv b (keepRest (tokenAction b e row w).1 (tokenAction b e row w).2) :=
  encInv_iff.mpr ⟨keepRest_tokenAction_controlOk hbusy hwin row hw,
    keepRest_streamOk (tokenAction_streamOk hb (encInv_iff.mp h).2 row w) _⟩

theorem startEnc_encInv (b : Build) (e : Enc) : EncInv b (startEnc e) :=
  encInv_iff.mpr ⟨⟨by simp, by simp, by simp⟩, ⟨by simp, by simp, by simp, by simp⟩⟩

theorem encStartOp_keeps_encInv (h : EncInv b e) : EncInv b (encStartOp e) := by
  by_cases hbusy : e.phase = .busy
  · rwa [encStartOp_busy hbusy]
  · rw [encStartOp_start hbusy]
    exact startEnc_encInv b e

theorem encReset_encInv (b : Build) : EncInv b Enc.reset :=
  encInv_iff.mpr ⟨⟨by decide, by decide, by decide⟩,
    ⟨rfl, by simp [Enc.reset], by simp [Enc.reset], by simp [Enc.reset]⟩⟩

end Sys2Proof.Machine
end

section
/-! SUPPORT. The invariant of DEC, operation by operation: the pending scalar, the error fields, and the stream with its
counters. Every operation but holding a scalar leaves none pending, and only an error writes the error fields. -/

namespace Sys2Proof.Machine

variable {b : Build} {d : Dec}

/-- The part of DEC's invariant about the pending scalar (R34, R42 (a), (b)). -/
structure DecPendingOk (b : Build) (d : Dec) : Prop where
  pending : d.pv = true → d.pc = cls b.lbSet d.p ∧ (d.pc = 0#3 ∨ d.pc = 1#3 ∨ d.pc = 2#3) ∧
    d.pidx.toNat < 2 ^ b.cntW ∧ d.idx = countUp b.cntW d.pidx
  not_busy : d.phase ≠ .busy → d.pv = false

/-- The part of DEC's invariant about the error fields (R38-R40, R42 (c), (d), R277). -/
structure DecErrorOk (d : Dec) : Prop where
  err_iff : d.err = true ↔ d.errKind ≠ .none
  of_drain : d.phase = .drain → d.err = true
  phase_of_err : d.err = true → d.phase = .drain ∨ d.phase = .done
  of_no_err : d.err = false → d.errIdx = 0#32 ∧ d.errSel = 0#7

/-- The part of DEC's invariant about its counters and its stream (R35-R37). -/
structure DecStreamOk (b : Build) (d : Dec) : Prop where
  idx_lt : d.idx.toNat < 2 ^ b.cntW
  outCount_lt : d.outCount.toNat < 2 ^ b.cntW
  out_nil : d.cmode = .count → d.out = []
  outCount_eq : d.cmode = .emit → d.outCount.toNat = d.out.length % 2 ^ b.cntW

/-- The error part reads the phase and the error fields alone. -/
theorem DecErrorOk.frame {f : Dec} (h : DecErrorOk d) (hphase : f.phase = d.phase := by rfl)
    (herr : f.err = d.err := by rfl) (hkind : f.errKind = d.errKind := by rfl)
    (hidx : f.errIdx = d.errIdx := by rfl) (hsel : f.errSel = d.errSel := by rfl) : DecErrorOk f :=
  ⟨by rw [herr, hkind]; exact h.err_iff, by rw [herr, hphase]; exact h.of_drain,
    by rw [herr, hphase]; exact h.phase_of_err, by rw [herr, hidx, hsel]; exact h.of_no_err⟩

/-- The stream part reads the mode, the counters and the stream alone. -/
theorem DecStreamOk.frame {f : Dec} (h : DecStreamOk b d) (hmode : f.cmode = d.cmode := by rfl)
    (hidx : f.idx = d.idx := by rfl) (hcount : f.outCount = d.outCount := by rfl) (hout : f.out = d.out := by rfl) :
    DecStreamOk b f :=
  ⟨hidx ▸ h.idx_lt, hcount ▸ h.outCount_lt, by rw [hmode, hout]; exact h.out_nil,
    by rw [hmode, hcount, hout]; exact h.outCount_eq⟩

theorem decInv_iff : DecInv b d ↔ DecPendingOk b d ∧ DecErrorOk d ∧ DecStreamOk b d := by
  constructor
  · rintro ⟨hpend, hidle, hiff, hdrain, hphase, hnone, hidx, hcount, hnil, heq⟩
    exact ⟨⟨hpend, hidle⟩, ⟨hiff, hdrain, hphase, hnone⟩, ⟨hidx, hcount, hnil, heq⟩⟩
  · rintro ⟨⟨hpend, hidle⟩, ⟨hiff, hdrain, hphase, hnone⟩, ⟨hidx, hcount, hnil, heq⟩⟩
    exact ⟨hpend, hidle, hiff, hdrain, hphase, hnone, hidx, hcount, hnil, heq⟩

theorem decPendingOk_of_none (h : d.pv = false) : DecPendingOk b d := ⟨by simp [h], fun _ => h⟩

/-! ### Output -/

theorem decOut_streamOk (hb : b.cntW ≤ 32) (h : DecStreamOk b d) (x : Byte) : DecStreamOk b (decOut b d x) := by
  refine ⟨h.idx_lt, countUp_lt hb _, fun hm => ?_, fun hm => ?_⟩
  · have hm' : d.cmode = .count := hm
    simpa [hm'] using h.out_nil hm'
  · have hm' : d.cmode = .emit := hm
    simp [hm', countUp_toNat hb, h.outCount_eq hm']

theorem decOuts_streamOk (hb : b.cntW ≤ 32) (h : DecStreamOk b d) (xs : List Byte) :
    DecStreamOk b (decOuts b d xs) := by
  induction xs generalizing d with
  | nil => exact h
  | cons x xs ih => exact ih (decOut_streamOk hb h x)

theorem decOuts_errorOk (h : DecErrorOk d) (xs : List Byte) : DecErrorOk (decOuts b d xs) := by
  rw [decOuts_frame]
  exact h.frame

/-- Emitting while no scalar is pending keeps the invariant. -/
theorem decOuts_decInv (hb : b.cntW ≤ 32) (hpv : d.pv = false) (he : DecErrorOk d) (hs : DecStreamOk b d)
    (xs : List Byte) : DecInv b (decOuts b d xs) := by
  have hpv' : (decOuts b d xs).pv = false := by
    rw [decOuts_frame]
    exact hpv
  exact decInv_iff.mpr ⟨decPendingOk_of_none hpv', decOuts_errorOk he xs, decOuts_streamOk hb hs xs⟩

/-- Emitting what a pending scalar stood for keeps the invariant. -/
theorem decOuts_consume_decInv (hb : b.cntW ≤ 32) (he : DecErrorOk d) (hs : DecStreamOk b d) (xs : List Byte) :
    DecInv b { decOuts b d xs with pv := false } :=
  decInv_iff.mpr
    ⟨decPendingOk_of_none rfl, (decOuts_errorOk he xs).frame, (decOuts_streamOk hb hs xs).frame⟩

/-! ### Errors -/

theorem raiseDecodeError_decInv {kind : ErrKind} (hkind : kind ≠ .none) (hs : DecStreamOk b d) (j : HostWord)
    (sel : BitVec 7) : DecInv b (raiseDecodeError d kind j sel) :=
  decInv_iff.mpr ⟨decPendingOk_of_none rfl, ⟨by simp [hkind], by simp, by simp, by simp⟩, hs.frame⟩

/-! ### The beats -/

theorem countIdx_errorOk (h : DecErrorOk d) : DecErrorOk (countIdx b d) := h.frame

theorem countIdx_streamOk (hb : b.cntW ≤ 32) (h : DecStreamOk b d) : DecStreamOk b (countIdx b d) :=
  ⟨countUp_lt hb _, h.outCount_lt, h.out_nil, h.outCount_eq⟩

theorem classifyPair_decInv (hb : b.cntW ≤ 32) (he : DecErrorOk d) (hs : DecStreamOk b d) (s : Scalar)
    (c : ClassCode) : DecInv b (classifyPair b d s c) := by
  unfold classifyPair
  extract_lets sel
  split
  · exact decOuts_consume_decInv hb he hs _
  split
  · exact decOuts_consume_decInv hb he hs _
  split
  · exact decOuts_consume_decInv hb he hs _
  · exact raiseDecodeError_decInv (by decide) hs _ _

theorem classifyLone_decInv (hb : b.cntW ≤ 32) (he : DecErrorOk d) (hs : DecStreamOk b d) :
    DecInv b (classifyLone b d) := by
  unfold classifyLone
  split
  · exact decOuts_consume_decInv hb he hs [fromU8 d.p]
  · exact raiseDecodeError_decInv (by decide) hs _ _

theorem class_eq_of_not_u12a :
    ∀ {c : ClassCode}, c ≠ 3#3 → ¬ c.getLsbD 2 = true → c = 0#3 ∨ c = 1#3 ∨ c = 2#3 := by
  decide

/-- A scalar is held with the class it has and the index it arrived at, which the count has just passed. -/
theorem holdScalar_decInv (hb : b.cntW ≤ 32) (hbusy : d.phase = .busy) (he : DecErrorOk d) (hs : DecStreamOk b d)
    {s : Scalar} (h3 : cls b.lbSet s ≠ 3#3) (h2 : ¬ (cls b.lbSet s).getLsbD 2 = true) :
    DecInv b (holdScalar (countIdx b d) s (cls b.lbSet s) d.idx) :=
  decInv_iff.mpr
    ⟨⟨fun _ => ⟨rfl, class_eq_of_not_u12a h3 h2, hs.idx_lt, rfl⟩, fun hn => absurd hbusy hn⟩,
      he.frame, (countIdx_streamOk hb hs).frame⟩

theorem pushScalar_keeps_decInv (hb : b.cntW ≤ 32) (hbusy : d.phase = .busy) (h : DecInv b d) (s : Scalar) :
    DecInv b (pushScalar b d s) := by
  obtain ⟨-, he, hs⟩ := decInv_iff.mp h
  have he' := countIdx_errorOk (b := b) he
  have hs' := countIdx_streamOk hb hs
  unfold pushScalar
  extract_lets c
  split
  case isTrue => exact h
  split
  case isTrue => exact classifyPair_decInv hb he' hs' s c
  case isFalse hpv =>
    split
    case isTrue => exact decOuts_decInv hb (by simpa using hpv) he' hs' _
    case isFalse h3 h2 => exact holdScalar_decInv hb hbusy he hs h3 h2

theorem returnFromTransaction_decInv (hpv : d.pv = false) (h : DecInv b d) : DecInv b (returnFromTransaction d) := by
  obtain ⟨-, he, hs⟩ := decInv_iff.mp h
  exact decInv_iff.mpr ⟨decPendingOk_of_none hpv, ⟨he.err_iff, by simp, by simp, he.of_no_err⟩, hs.frame⟩

theorem classifyLone_pv (b : Build) (d : Dec) : (classifyLone b d).pv = false := by
  unfold classifyLone
  split <;> rfl

theorem endScalars_keeps_decInv (hb : b.cntW ≤ 32) (h : DecInv b d) : DecInv b (endScalars b d) := by
  obtain ⟨hp, he, hs⟩ := decInv_iff.mp h
  unfold endScalars
  split
  case isTrue => exact returnFromTransaction_decInv (classifyLone_pv b d) (classifyLone_decInv hb he hs)
  case isFalse hnone =>
    refine returnFromTransaction_decInv ?_ h
    by_cases hbusy : d.phase = .busy
    · simpa [hbusy] using hnone
    · exact hp.not_busy hbusy

theorem startDec_decInv (b : Build) (d : Dec) (m : CMode) : DecInv b (startDec d m) :=
  decInv_iff.mpr ⟨decPendingOk_of_none rfl, ⟨by simp, by simp, by simp, by simp⟩,
    ⟨by simp, by simp, by simp, by simp⟩⟩

theorem decStartOp_keeps_decInv (h : DecInv b d) (m : CMode) : DecInv b (decStartOp d m) := by
  cases hr : decRunning d with
  | true => rwa [decStartOp_running hr]
  | false =>
    rw [decStartOp_start hr]
    exact startDec_decInv b d m

theorem decReset_decInv (b : Build) : DecInv b Dec.reset :=
  decInv_iff.mpr ⟨decPendingOk_of_none rfl, ⟨by decide, by decide, by decide, by decide⟩,
    ⟨by simp [Dec.reset], by simp [Dec.reset], fun _ => rfl, by simp [Dec.reset]⟩⟩

end Sys2Proof.Machine
end

section
/-! SUPPORT. The invariant of the machine: first each way an action ends, then each action, then a step. -/

namespace Sys2Proof.Machine

/-- The outcome has no next state that breaks the invariant. -/
def LeavesInv (r : Result) : Prop := ∀ t, r = .next t → Inv t

variable {s : State}

theorem cntW_le_of_inv (h : Inv s) : s.build.cntW ≤ 32 := by
  obtain ⟨hbuild, -, -⟩ := h
  obtain ⟨-, hle, -⟩ := (buildValid_iff _).mp hbuild
  exact hle

theorem encInv_of_inv (h : Inv s) : EncInv s.build s.enc := by
  obtain ⟨-, henc, -⟩ := h
  exact henc

theorem decInv_of_inv (h : Inv s) : DecInv s.build s.dec := by
  obtain ⟨-, -, hdec⟩ := h
  exact hdec

theorem leavesInv_next {t : State} (h : Inv t) : LeavesInv (.next t) := by
  rintro u ⟨⟩
  exact h

theorem leavesInv_acceptEnc (h : Inv s) {e : Enc} (he : EncInv s.build e) : LeavesInv (acceptEnc s e) := by
  obtain ⟨hbuild, -, hdec⟩ := h
  exact leavesInv_next ⟨hbuild, he, hdec⟩

theorem leavesInv_acceptDec (h : Inv s) {d : Dec} (hd : DecInv s.build d) : LeavesInv (acceptDec s d) := by
  obtain ⟨hbuild, henc, -⟩ := h
  exact leavesInv_next ⟨hbuild, henc, hd⟩

theorem leavesInv_answer (h : Inv s) (r : Response) : LeavesInv (answer s r) := leavesInv_next h

theorem leavesInv_notAccept (h : Inv s) : LeavesInv (notAccept s) := leavesInv_next h

theorem leavesInv_execToken (h : Inv s) (row : EncRow) {w : List Byte} (hw : w.length ≤ 3) :
    LeavesInv (execToken row w s) := by
  have hb := cntW_le_of_inv h
  have henc := encInv_of_inv h
  obtain ⟨hbusy, hwin, -, heq⟩ | heq := execToken_cases row w s
  · rw [heq]
    exact leavesInv_acceptEnc h (token_keeps_encInv hb hbusy hwin henc row hw)
  · rw [heq]
    exact leavesInv_notAccept h

theorem leavesInv_execRow (h : Inv s) {c : Bool} {d : Dec} (hd : c = true → DecInv s.build d) :
    LeavesInv (execRow c d s) := by
  obtain ⟨hc, heq⟩ | ⟨-, heq⟩ := execRow_cases c d s
  · rw [heq]
    exact leavesInv_acceptDec h (hd hc)
  · rw [heq]
    exact leavesInv_notAccept h

theorem leavesInv_execEncPush (h : Inv s) (x : Byte) : LeavesInv (execEncPush x s) := by
  have hb := cntW_le_of_inv h
  have henc := encInv_of_inv h
  unfold execEncPush
  split
  case isTrue hbusy => exact leavesInv_acceptEnc h (pushByte_keeps_encInv hb hbusy henc x)
  case isFalse => exact leavesInv_notAccept h

theorem leavesInv_execEncEnd (h : Inv s) (data : Byte) : LeavesInv (execEncEnd data s) := by
  have hb := cntW_le_of_inv h
  have henc := encInv_of_inv h
  unfold execEncEnd
  split
  · exact leavesInv_acceptEnc h (endInput_keeps_encInv hb henc)
  · exact leavesInv_notAccept h

theorem leavesInv_execDecPush (h : Inv s) (x : Scalar) : LeavesInv (execDecPush x s) := by
  have hb := cntW_le_of_inv h
  have hdec := decInv_of_inv h
  unfold execDecPush
  split
  case isTrue hbusy => exact leavesInv_acceptDec h (pushScalar_keeps_decInv hb hbusy hdec x)
  split
  · exact leavesInv_acceptDec h hdec
  · exact leavesInv_notAccept h

theorem leavesInv_execDecEnd (h : Inv s) (data : Scalar) : LeavesInv (execDecEnd data s) := by
  have hb := cntW_le_of_inv h
  have hdec := decInv_of_inv h
  unfold execDecEnd
  split
  · exact leavesInv_acceptDec h (endScalars_keeps_decInv hb hdec)
  · exact leavesInv_notAccept h

theorem leavesInv_execDApair (h : Inv s) (hasNext : BitVec 1) (cls1 : ClassCode) (k : BitVec 2) (x : Scalar) :
    LeavesInv (execDApair hasNext cls1 k x s) := by
  have hb := cntW_le_of_inv h
  have hdec := decInv_of_inv h
  obtain ⟨-, he, hs⟩ := decInv_iff.mp hdec
  refine leavesInv_execRow h fun hsel => decOuts_decInv hb ?_ he hs _
  simp only [Bool.and_eq_true, Bool.not_eq_true'] at hsel
  obtain ⟨⟨-, hpv⟩, -⟩ := hsel
  exact hpv

theorem leavesInv_execWrreg (h : Inv s) (n : BitVec 4) (v : HostWord) : LeavesInv (execWrreg n v s) := by
  unfold execWrreg
  split
  · exact leavesInv_acceptEnc h (encStartOp_keeps_encInv (encInv_of_inv h))
  split
  · exact leavesInv_acceptDec h (decStartOp_keeps_decInv (decInv_of_inv h) _)
  · exact leavesInv_answer h _

theorem leavesInv_execReset (h : Inv s) : LeavesInv (execReset s) := by
  obtain ⟨hbuild, -, -⟩ := h
  exact leavesInv_next ⟨hbuild, encReset_encInv _, decReset_decInv _⟩

/-- Every action, of the host's or a row by itself, keeps the invariant. -/
theorem leavesInv_exec (h : Inv s) (i : Instr) : LeavesInv (exec i s) := by
  have hb := cntW_le_of_inv h
  have henc := encInv_of_inv h
  have hdec := decInv_of_inv h
  obtain ⟨-, he, hs⟩ := decInv_iff.mp hdec
  cases i with
  | primClass | primB2u8 | primU82b | primN2u12 | primU122n | primTpack | primTunpack | primApack | primAunpack
  | primRpack | primRunpack | primReservedB | primReservedCF => exact leavesInv_answer h _
  | eRun | eTriple => exact leavesInv_execToken h _ (by simp)
  | eApair w0 w1 w2 => exact leavesInv_execToken h _ (by cases w2 <;> simp)
  | eSingle w0 w1 => exact leavesInv_execToken h _ (by cases w1 <;> simp)
  | dSkipLb => exact leavesInv_execRow h fun _ => hdec
  | dApair hasNext cls1 k x => exact leavesInv_execDApair h hasNext cls1 k x
  | dTriple | dRun | dSs => exact leavesInv_execRow h fun _ => decOuts_consume_decInv hb he hs _
  | dLast => exact leavesInv_execRow h fun _ => decOuts_consume_decInv hb he hs [fromU8 s.dec.p]
  | dErrPair | dErrLone => exact leavesInv_execRow h fun _ => raiseDecodeError_decInv (by decide) hs _ _
  | encPush => exact leavesInv_execEncPush h _
  | encEnd data => exact leavesInv_execEncEnd h data
  | decPush => exact leavesInv_execDecPush h _
  | decEnd data => exact leavesInv_execDecEnd h data
  | encStart => exact leavesInv_acceptEnc h (encStartOp_keeps_encInv henc)
  | decStart => exact leavesInv_acceptDec h (decStartOp_keeps_decInv hdec _)
  | wrreg => exact leavesInv_execWrreg h _ _
  | rdreg => exact leavesInv_answer h _
  | reset => exact leavesInv_execReset h

/-- Settles O58: no action breaks the invariant, and taking a beat or putting it aside writes no register. -/
theorem stepKeepsTheInvariant : Obligations.StepKeepsTheInvariant := by
  intro s t h hstep
  obtain ⟨-, rfl⟩ | ⟨b, rest, i, t', -, -, hexec, ht⟩ := step_eq_next hstep
  · exact h
  · rw [ht]
    exact leavesInv_exec (s := { s with inputs := rest }) h i t' hexec

end Sys2Proof.Machine
end

section
/-! SUPPORT. The ranges as intervals and as masks: the class of a scalar as a number, what a mask of high bits keeps of
a scalar, and the pieces of which R96 makes a range. -/

namespace Sys2Proof.Machine

/-! ### Classes as intervals -/

theorem toNat_blockCode {s : Scalar} (h1 : 0x5E00 ≤ s.toNat) (h2 : s.toNat ≤ 0x9DFF) :
    (4#3 + ((s - a00Base) >>> 12).setWidth 3).toNat = 4 + (s.toNat - 0x5E00) / 4096 := by
  have hsub : (s - a00Base).toNat = s.toNat - 0x5E00 := by
    unfold a00Base
    bv_omega
  simp only [BitVec.toNat_add, BitVec.toNat_setWidth, BitVec.toNat_ushiftRight, BitVec.toNat_ofNat, hsub,
    Nat.shiftRight_eq_div_pow]
  omega

/-- The class as a number, with R120's intervals on the number of the scalar. -/
theorem toNat_cls (lb : List Scalar) (s : Scalar) :
    (cls lb s).toNat =
      if 0x400 ≤ s.toNat ∧ s.toNat ≤ 0x4FF then 1
      else if 0x4E00 ≤ s.toNat ∧ s.toNat ≤ 0x5DFF then 2
      else if 0x5E00 ≤ s.toNat ∧ s.toNat ≤ 0x9DFF then 4 + (s.toNat - 0x5E00) / 4096
      else if s ∈ lb then 3
      else 0 := by
  simp only [cls, BitVec.le_def, BitVec.toNat_ofNat, Nat.reducePow, Nat.reduceMod]
  split_ifs with hu8 hu12 hu12a hlb
  · rfl
  · rfl
  · exact toNat_blockCode hu12a.1 hu12a.2
  · rfl
  · rfl

theorem cls_eq_u8_iff (lb : List Scalar) (s : Scalar) : cls lb s = 1#3 ↔ 0x400 ≤ s.toNat ∧ s.toNat < 0x500 := by
  rw [BitVec.toNat_eq, toNat_cls, BitVec.toNat_ofNat]
  constructor
  · intro h
    split_ifs at h <;> omega
  · intro h
    rw [if_pos (by omega)]

/-- The class of the `k`-th range of 4096 values: U12 for 0, the U12a blocks for 1 to 4. -/
def wideCode (k : Nat) : ClassCode := if k = 0 then 2#3 else BitVec.ofNat 3 (3 + k)

theorem toNat_wideCode {k : Nat} (hk : k < 5) : (wideCode k).toNat = if k = 0 then 2 else 3 + k := by
  unfold wideCode
  split
  · rfl
  · simp only [BitVec.toNat_ofNat]
    omega

theorem cls_eq_wideCode_iff (lb : List Scalar) (s : Scalar) {k : Nat} (hk : k < 5) :
    cls lb s = wideCode k ↔ 0x4E00 + 0x1000 * k ≤ s.toNat ∧ s.toNat < 0x5E00 + 0x1000 * k := by
  rw [BitVec.toNat_eq, toNat_cls, toNat_wideCode hk]
  constructor
  · intro h
    split_ifs at h <;> omega
  · intro h
    split_ifs <;> omega

/-! ### Masks of high bits -/

theorem toNat_and_highMask (s : Scalar) (n : Nat) :
    (s &&& BitVec.allOnes 21 <<< n).toNat = s.toNat / 2 ^ n * 2 ^ n := by
  have hle := Nat.div_mul_le_self s.toNat (2 ^ n)
  rw [← BitVec.shiftLeft_ushiftRight, BitVec.toNat_shiftLeft, BitVec.toNat_ushiftRight, Nat.shiftLeft_eq,
    Nat.shiftRight_eq_div_pow, Nat.mod_eq_of_lt (by omega)]

/-- A mask and match is the aligned interval of its size. -/
theorem and_highMask_eq_iff (s : Scalar) {n m : Nat} (hm : m < 2 ^ 21) (hdvd : 2 ^ n ∣ m) :
    s &&& BitVec.allOnes 21 <<< n = BitVec.ofNat 21 m ↔ m ≤ s.toNat ∧ s.toNat < m + 2 ^ n := by
  obtain ⟨a, rfl⟩ := hdvd
  have hpos : 0 < 2 ^ n := by positivity
  rw [BitVec.toNat_eq, toNat_and_highMask, BitVec.toNat_ofNat, Nat.mod_eq_of_lt hm, Nat.mul_comm (2 ^ n),
    Nat.mul_left_inj hpos.ne', Nat.div_eq_iff hpos]
  omega

/-! ### The pieces of R96 -/

theorem and_mask_u8_iff (s : Scalar) : s &&& 0x1FFF00#21 = 0x000400#21 ↔ 0x400 ≤ s.toNat ∧ s.toNat < 0x500 :=
  and_highMask_eq_iff s (n := 8) (m := 0x400) (by decide) (by decide)

/-- The four pieces of the `k`-th range follow one another without a gap. -/
theorem and_mask_wide_iff (s : Scalar) {k : Nat} (hk : k < 5) :
    (s &&& 0x1FFE00#21 = BitVec.ofNat 21 (0x4E00 + 0x1000 * k) ∨
      s &&& 0x1FF800#21 = BitVec.ofNat 21 (0x5000 + 0x1000 * k) ∨
      s &&& 0x1FFC00#21 = BitVec.ofNat 21 (0x5800 + 0x1000 * k) ∨
      s &&& 0x1FFE00#21 = BitVec.ofNat 21 (0x5C00 + 0x1000 * k)) ↔
    0x4E00 + 0x1000 * k ≤ s.toNat ∧ s.toNat < 0x5E00 + 0x1000 * k := by
  have piece1 := and_highMask_eq_iff s (n := 9) (m := 0x4E00 + 0x1000 * k) (by omega) (by omega)
  have piece2 := and_highMask_eq_iff s (n := 11) (m := 0x5000 + 0x1000 * k) (by omega) (by omega)
  have piece3 := and_highMask_eq_iff s (n := 10) (m := 0x5800 + 0x1000 * k) (by omega) (by omega)
  have piece4 := and_highMask_eq_iff s (n := 9) (m := 0x5C00 + 0x1000 * k) (by omega) (by omega)
  refine (or_congr piece1 (or_congr piece2 (or_congr piece3 piece4))).trans ?_
  omega

/-- Settles O5: mask form and class name the same intervals. -/
theorem rangeMasksMatchTheRanges : Obligations.RangeMasksMatchTheRanges := by
  intro s
  refine ⟨(and_mask_u8_iff s).trans (cls_eq_u8_iff [] s).symm, fun k hk => ?_⟩
  exact (and_mask_wide_iff s hk).trans (cls_eq_wideCode_iff [] s hk).symm

end Sys2Proof.Machine
end

section
/-! SUPPORT. The PRIM functions in arithmetic: the membership tests as intervals, the helpers of R128 as numbers, the
inverse laws of R139, and each PRIM result as a range check on numbers in front of a number. -/

namespace Sys2Proof.Machine

/-! ### The classes outside the ranges, and the membership tests -/

theorem cls_eq_lineBreak_iff (lb : List Scalar) (s : Scalar) :
    cls lb s = 3#3 ↔
      s ∈ lb ∧ ¬(0x400 ≤ s.toNat ∧ s.toNat ≤ 0x4FF) ∧ ¬(0x4E00 ≤ s.toNat ∧ s.toNat ≤ 0x9DFF) := by
  rw [BitVec.toNat_eq, toNat_cls, BitVec.toNat_ofNat]
  split_ifs <;> grind

theorem cls_eq_none_iff (lb : List Scalar) (s : Scalar) :
    cls lb s = 0#3 ↔
      s ∉ lb ∧ ¬(0x400 ≤ s.toNat ∧ s.toNat ≤ 0x4FF) ∧ ¬(0x4E00 ≤ s.toNat ∧ s.toNat ≤ 0x9DFF) := by
  rw [BitVec.toNat_eq, toNat_cls, BitVec.toNat_ofNat]
  split_ifs <;> grind

theorem inU8_iff (lb : List Scalar) (s : Scalar) : inU8 lb s = true ↔ 0x400 ≤ s.toNat ∧ s.toNat ≤ 0x4FF := by
  rw [inU8, beq_iff_eq, cls_eq_u8_iff]
  omega

theorem inU12_iff (lb : List Scalar) (s : Scalar) : inU12 lb s = true ↔ 0x4E00 ≤ s.toNat ∧ s.toNat ≤ 0x5DFF := by
  have hcode : (2#3 : ClassCode) = wideCode 0 := rfl
  rw [inU12, beq_iff_eq, hcode, cls_eq_wideCode_iff lb s (by decide)]
  omega

/-- Bit 2 of the class is set in the four blocks only. -/
theorem inU12a_iff (lb : List Scalar) (s : Scalar) : inU12a lb s = true ↔ 0x5E00 ≤ s.toNat ∧ s.toNat ≤ 0x9DFF := by
  have hbit : inU12a lb s = decide (4 ≤ (cls lb s).toNat) :=
    (BitVec.msb_eq_getLsbD_last _).symm.trans (BitVec.msb_eq_decide _)
  rw [hbit, decide_eq_true_iff, toNat_cls]
  split_ifs <;> omega

/-- Settles O4: one clause for each class code. -/
theorem classesFollowTheRanges : Obligations.ClassesFollowTheRanges := by
  intro lb s
  have hu8 := cls_eq_u8_iff lb s
  have hu12 := cls_eq_wideCode_iff lb s (k := 0) (by decide)
  refine ⟨hu8.trans (by omega), hu12.trans (by omega), fun k hk => ?_, cls_eq_lineBreak_iff lb s,
    cls_eq_none_iff lb s⟩
  have hcode : BitVec.ofNat 3 (4 + k) = wideCode (k + 1) := by
    rw [wideCode, if_neg k.succ_ne_zero]
    congr 1
    omega
  rw [hcode, cls_eq_wideCode_iff lb s (by omega)]
  omega

/-! ### Bit fields as numbers -/

theorem toNat_append_eq_mul_add {m n : Nat} (x : BitVec m) (y : BitVec n) :
    (x ++ y).toNat = x.toNat * 2 ^ n + y.toNat := by
  rw [BitVec.toNat_append, ← Nat.shiftLeft_add_eq_or_of_lt y.isLt, Nat.shiftLeft_eq]

theorem toNat_extractLsb'_eq_div_mod {w : Nat} (x : BitVec w) (start len : Nat) :
    (x.extractLsb' start len).toNat = x.toNat / 2 ^ start % 2 ^ len := by
  rw [BitVec.extractLsb'_toNat, Nat.shiftRight_eq_div_pow]

theorem toNat_setWidth_of_lt {a : Scalar} {n : Nat} (h : a.toNat < 2 ^ n) : (a.setWidth n).toNat = a.toNat := by
  rw [BitVec.toNat_setWidth, Nat.mod_eq_of_lt h]

/-! ### The helpers of R128 as numbers -/

theorem toU8_eq_ofNat (b : Byte) : toU8 b = BitVec.ofNat 21 (0x400 + b.toNat) := by
  rw [BitVec.ofNat_add, BitVec.ofNat_toNat]
  rfl

theorem toU12_eq_ofNat (n : BitVec 12) : toU12 n = BitVec.ofNat 21 (0x4E00 + n.toNat) := by
  rw [BitVec.ofNat_add, BitVec.ofNat_toNat]
  rfl

theorem toNat_fromU8 {s : Scalar} (h : 0x400 ≤ s.toNat ∧ s.toNat ≤ 0x4FF) : (fromU8 s).toNat = s.toNat - 0x400 := by
  simp only [fromU8, u8Base]
  bv_omega

theorem toNat_fromU12 {s : Scalar} (h : 0x4E00 ≤ s.toNat ∧ s.toNat ≤ 0x5DFF) :
    (fromU12 s).toNat = s.toNat - 0x4E00 := by
  simp only [fromU12, u12Base]
  bv_omega

theorem toNat_tpack (a b c : Byte) :
    (tpack a b c).1.toNat = (a.toNat * 65536 + b.toNat * 256 + c.toNat) / 4096 ∧
    (tpack a b c).2.toNat = (a.toNat * 65536 + b.toNat * 256 + c.toNat) % 4096 := by
  simp only [tpack, toNat_append_eq_mul_add, toNat_extractLsb'_eq_div_mod]
  omega

theorem toNat_tunpack (h l : BitVec 12) :
    (tunpack h l).1.toNat = (h.toNat * 4096 + l.toNat) / 65536 ∧
    (tunpack h l).2.1.toNat = (h.toNat * 4096 + l.toNat) / 256 % 256 ∧
    (tunpack h l).2.2.toNat = (h.toNat * 4096 + l.toNat) % 256 := by
  simp only [tunpack, toNat_append_eq_mul_add, toNat_extractLsb'_eq_div_mod]
  omega

theorem apack_eq_ofNat (i1 i2 : BitVec 7) :
    apack i1 i2 = BitVec.ofNat 21
      (0x5E00 + 0x1000 * (2 * (i1.toNat / 64) + i2.toNat / 64) + 64 * (i1.toNat % 64) + i2.toNat % 64) := by
  rw [apack, ← BitVec.ofNat_toNat, a00Base, ← BitVec.ofNat_add]
  simp only [toNat_append_eq_mul_add, toNat_extractLsb'_eq_div_mod]
  congr 1
  omega

theorem toNat_apack (i1 i2 : BitVec 7) :
    (apack i1 i2).toNat =
      0x5E00 + 0x1000 * (2 * (i1.toNat / 64) + i2.toNat / 64) + 64 * (i1.toNat % 64) + i2.toNat % 64 := by
  rw [apack_eq_ofNat, BitVec.toNat_ofNat]
  omega

theorem toNat_aunpack {s : Scalar} (h : 0x5E00 ≤ s.toNat ∧ s.toNat ≤ 0x9DFF) :
    (aunpack s).1.toNat = 64 * ((s.toNat - 0x5E00) / 8192) + (s.toNat - 0x5E00) / 64 % 64 ∧
    (aunpack s).2.toNat = 64 * ((s.toNat - 0x5E00) / 4096 % 2) + (s.toNat - 0x5E00) % 64 := by
  have hsub : (s - a00Base).toNat = s.toNat - 0x5E00 := by
    unfold a00Base
    bv_omega
  simp only [aunpack, toNat_append_eq_mul_add, toNat_extractLsb'_eq_div_mod, hsub]
  omega

/-! ### The inverse laws (R139) -/

theorem tunpack_tpack (a b c : Byte) : tunpack (tpack a b c).1 (tpack a b c).2 = (a, b, c) := by
  obtain ⟨hhigh, hlow⟩ := toNat_tpack a b c
  obtain ⟨h1, h2, h3⟩ := toNat_tunpack (tpack a b c).1 (tpack a b c).2
  simp only [Prod.ext_iff, BitVec.toNat_eq]
  omega

theorem tpack_tunpack (h l : BitVec 12) :
    tpack (tunpack h l).1 (tunpack h l).2.1 (tunpack h l).2.2 = (h, l) := by
  obtain ⟨h1, h2, h3⟩ := toNat_tunpack h l
  obtain ⟨hhigh, hlow⟩ := toNat_tpack (tunpack h l).1 (tunpack h l).2.1 (tunpack h l).2.2
  simp only [Prod.ext_iff, BitVec.toNat_eq]
  omega

theorem aunpack_apack (i1 i2 : BitVec 7) : aunpack (apack i1 i2) = (i1, i2) := by
  have hpack := toNat_apack i1 i2
  obtain ⟨h1, h2⟩ := toNat_aunpack (s := apack i1 i2) (by omega)
  simp only [Prod.ext_iff, BitVec.toNat_eq]
  omega

theorem apack_aunpack {s : Scalar} (h : 0x5E00 ≤ s.toNat ∧ s.toNat ≤ 0x9DFF) :
    apack (aunpack s).1 (aunpack s).2 = s := by
  obtain ⟨h1, h2⟩ := toNat_aunpack h
  rw [BitVec.toNat_eq, toNat_apack]
  omega

theorem fromU8_toU8 (b : Byte) : fromU8 (toU8 b) = b := by
  simp [fromU8, toU8]

theorem fromU12_toU12 (n : BitVec 12) : fromU12 (toU12 n) = n := by
  simp [fromU12, toU12]

/-- Settles O14: both sides of each law have the same digits. -/
theorem packingInverseLaws : Obligations.PackingInverseLaws :=
  ⟨tunpack_tpack, tpack_tunpack, aunpack_apack, fun _ h1 h2 => apack_aunpack ⟨h1, h2⟩, fromU8_toU8, fromU12_toU12⟩

/-! ### The results of the PRIM functions -/

/-- The pseudocode rejects (`A >= 256`) where a statement names the domain (`A < 256`). -/
theorem rangeCheck_eq {reject domain : Prop} [Decidable reject] [Decidable domain] {q r : PrimResult}
    (hcheck : ¬reject ↔ domain) (hresult : domain → q = r) :
    (if reject then primRange else q) = if domain then r else primRange :=
  (ite_not reject q primRange).symm.trans (ite_congr (propext hcheck) hresult fun _ => rfl)

theorem primB2u8Result_eq (a : Scalar) :
    primB2u8Result a = if a.toNat < 256 then primOk (BitVec.ofNat 21 (0x400 + a.toNat)) else primRange := by
  refine rangeCheck_eq (by bv_omega) fun ha => ?_
  rw [toU8_eq_ofNat, toNat_setWidth_of_lt ha]

theorem primU82bResult_eq (lb : List Scalar) (a : Scalar) :
    primU82bResult lb a =
      if 0x400 ≤ a.toNat ∧ a.toNat ≤ 0x4FF then primOk (BitVec.ofNat 21 (a.toNat - 0x400)) else primRange := by
  refine ite_congr (propext (inU8_iff lb a)) (fun ha => ?_) fun _ => rfl
  rw [← BitVec.ofNat_toNat, toNat_fromU8 ha]

theorem primN2u12Result_eq (a : Scalar) :
    primN2u12Result a = if a.toNat < 4096 then primOk (BitVec.ofNat 21 (0x4E00 + a.toNat)) else primRange := by
  refine rangeCheck_eq (by bv_omega) fun ha => ?_
  rw [toU12_eq_ofNat, toNat_setWidth_of_lt ha]

theorem primU122nResult_eq (lb : List Scalar) (a : Scalar) :
    primU122nResult lb a =
      if 0x4E00 ≤ a.toNat ∧ a.toNat ≤ 0x5DFF then primOk (BitVec.ofNat 21 (a.toNat - 0x4E00)) else primRange := by
  refine ite_congr (propext (inU12_iff lb a)) (fun ha => ?_) fun _ => rfl
  rw [← BitVec.ofNat_toNat, toNat_fromU12 ha]

theorem primTpackResult_eq (a b c : Scalar) :
    primTpackResult a b c =
      if a.toNat < 256 ∧ b.toNat < 256 ∧ c.toNat < 256 then
        primOk (BitVec.ofNat 21 ((a.toNat * 65536 + b.toNat * 256 + c.toNat) / 4096))
          (BitVec.ofNat 21 ((a.toNat * 65536 + b.toNat * 256 + c.toNat) % 4096))
      else primRange := by
  refine rangeCheck_eq (by bv_omega) fun ⟨ha, hb, hc⟩ => ?_
  obtain ⟨hhigh, hlow⟩ := toNat_tpack (a.setWidth 8) (b.setWidth 8) (c.setWidth 8)
  rw [toNat_setWidth_of_lt ha, toNat_setWidth_of_lt hb, toNat_setWidth_of_lt hc] at hhigh hlow
  rw [← hhigh, ← hlow, BitVec.ofNat_toNat, BitVec.ofNat_toNat]

theorem primTunpackResult_eq (a b : Scalar) :
    primTunpackResult a b =
      if a.toNat < 4096 ∧ b.toNat < 4096 then
        primOk (BitVec.ofNat 21 ((a.toNat * 4096 + b.toNat) / 65536))
          (BitVec.ofNat 21 ((a.toNat * 4096 + b.toNat) / 256 % 256))
          (BitVec.ofNat 21 ((a.toNat * 4096 + b.toNat) % 256))
      else primRange := by
  refine rangeCheck_eq (by bv_omega) fun ⟨ha, hb⟩ => ?_
  obtain ⟨h1, h2, h3⟩ := toNat_tunpack (a.setWidth 12) (b.setWidth 12)
  rw [toNat_setWidth_of_lt ha, toNat_setWidth_of_lt hb] at h1 h2 h3
  rw [← h1, ← h2, ← h3, BitVec.ofNat_toNat, BitVec.ofNat_toNat, BitVec.ofNat_toNat]

theorem primApackResult_eq (a b : Scalar) :
    primApackResult a b =
      if a.toNat < 128 ∧ b.toNat < 128 then
        primOk (BitVec.ofNat 21
          (0x5E00 + 0x1000 * (2 * (a.toNat / 64) + b.toNat / 64) + 64 * (a.toNat % 64) + b.toNat % 64))
      else primRange := by
  refine rangeCheck_eq (by bv_omega) fun ⟨ha, hb⟩ => ?_
  rw [apack_eq_ofNat, toNat_setWidth_of_lt ha, toNat_setWidth_of_lt hb]

theorem primAunpackResult_eq (lb : List Scalar) (a : Scalar) :
    primAunpackResult lb a =
      if 0x5E00 ≤ a.toNat ∧ a.toNat ≤ 0x9DFF then
        primOk (BitVec.ofNat 21 (64 * ((a.toNat - 0x5E00) / 8192) + (a.toNat - 0x5E00) / 64 % 64))
          (BitVec.ofNat 21 (64 * ((a.toNat - 0x5E00) / 4096 % 2) + (a.toNat - 0x5E00) % 64))
      else primRange := by
  refine ite_congr (propext (inU12a_iff lb a)) (fun ha => ?_) fun _ => rfl
  obtain ⟨h1, h2⟩ := toNat_aunpack ha
  rw [← h1, ← h2, BitVec.ofNat_toNat, BitVec.ofNat_toNat]

theorem primRpackResult_eq (a b : Scalar) :
    primRpackResult a b =
      if a.toNat < 256 ∧ b.toNat < 4096 then
        primOk (BitVec.ofNat 21 (0x400 + a.toNat)) (BitVec.ofNat 21 (0x4E00 + b.toNat))
      else primRange := by
  refine rangeCheck_eq (by bv_omega) fun ⟨ha, hb⟩ => ?_
  rw [toU8_eq_ofNat, toU12_eq_ofNat, toNat_setWidth_of_lt ha, toNat_setWidth_of_lt hb]

theorem primRunpackResult_eq (lb : List Scalar) (a b : Scalar) :
    primRunpackResult lb a b =
      if (0x400 ≤ a.toNat ∧ a.toNat ≤ 0x4FF) ∧ 0x4E00 ≤ b.toNat ∧ b.toNat ≤ 0x5DFF then
        primOk (BitVec.ofNat 21 (a.toNat - 0x400)) (BitVec.ofNat 21 (b.toNat - 0x4E00))
      else primRange := by
  have hdomain := Bool.and_eq_true_iff.trans (and_congr (inU8_iff lb a) (inU12_iff lb b))
  refine ite_congr (propext hdomain) (fun ⟨ha, hb⟩ => ?_) fun _ => rfl
  rw [← BitVec.ofNat_toNat, ← BitVec.ofNat_toNat, toNat_fromU8 ha, toNat_fromU12 hb]

/-! ### The PRIM rows: the word is the concatenation of its fields, and the answer is the result, with the rest of the
state as it was (`exec_of_primResult`). -/

/-- Settles O9: each conversion is its base added or taken away in arithmetic, behind the check of its domain. -/
theorem primConversionsMoveARangeBase : Obligations.PrimConversionsMoveARangeBase := by
  intro a b c s
  refine ⟨rfl, rfl, rfl, rfl, ?b2u8, ?u82b, ?n2u12, ?u122n⟩
  case b2u8 => exact exec_of_primResult (congrArg some (primB2u8Result_eq a))
  case u82b => exact exec_of_primResult (congrArg some (primU82bResult_eq s.build.lbSet a))
  case n2u12 => exact exec_of_primResult (congrArg some (primN2u12Result_eq a))
  case u122n => exact exec_of_primResult (congrArg some (primU122nResult_eq s.build.lbSet a))

/-- Settles O10: both directions read the 24-bit group as one number. -/
theorem primTriplesPackBigEndian : Obligations.PrimTriplesPackBigEndian := by
  intro a b c s
  refine ⟨rfl, rfl, ?tpack, ?tunpack⟩
  case tpack => exact exec_of_primResult (congrArg some (primTpackResult_eq a b c))
  case tunpack => exact exec_of_primResult (congrArg some (primTunpackResult_eq a b))

/-- Settles O11: the block bits and the low bits as digits of one number. -/
theorem primAsciiPairsPackByBlock : Obligations.PrimAsciiPairsPackByBlock := by
  intro a b c s
  refine ⟨rfl, rfl, ?apack, ?aunpack⟩
  case apack => exact exec_of_primResult (congrArg some (primApackResult_eq a b))
  case aunpack => exact exec_of_primResult (congrArg some (primAunpackResult_eq s.build.lbSet a))

/-- Settles O12: each operand by the conversion of its own range. -/
theorem primRunDescriptorsConvert : Obligations.PrimRunDescriptorsConvert := by
  intro a b c s
  refine ⟨rfl, rfl, ?rpack, ?runpack⟩
  case rpack => exact exec_of_primResult (congrArg some (primRpackResult_eq a b))
  case runpack => exact exec_of_primResult (congrArg some (primRunpackResult_eq s.build.lbSet a b))

/-- Settles O8: the result is the class, zero-extended. -/
theorem primClassAnswersTheClass : Obligations.PrimClassAnswersTheClass := by
  intro a b c s
  have hresult : primClassResult s.build.lbSet a = primOk (BitVec.ofNat 21 (cls s.build.lbSet a).toNat) := by
    rw [primClassResult, BitVec.ofNat_toNat]
  exact ⟨rfl, exec_of_primResult (congrArg some hresult)⟩

/-- Settles O13: both reserved rows answer `primIllegal`. -/
theorem primReservedIsIllegal : Obligations.PrimReservedIsIllegal := by
  intro f a b c s
  exact ⟨rfl, rfl, exec_of_primResult rfl, exec_of_primResult rfl⟩

end Sys2Proof.Machine
end

section
/-! SUPPORT. The batch encoder as equations, one for each kind of token, and the induction they give. -/

namespace Sys2Proof.Machine

/-! ### Runs -/

theorem runLength_le_length (b : Byte) (l : List Byte) : runLength b l ≤ l.length := by
  induction l with
  | nil => exact le_refl 0
  | cons x xs ih =>
    unfold runLength
    split
    · exact Nat.succ_le_succ ih
    · exact Nat.zero_le _

theorem runLength_cons_self (b : Byte) (l : List Byte) : runLength b (b :: l) = runLength b l + 1 := if_pos rfl

theorem runLength_replicate_append (b : Byte) (n : Nat) (l : List Byte) :
    runLength b (List.replicate n b ++ l) = n + runLength b l := by
  induction n with
  | zero => simp
  | succ n ih => rw [List.replicate_succ, List.cons_append, runLength_cons_self, ih, Nat.add_right_comm]

theorem replicate_append_drop_of_le_runLength {b : Byte} {n : Nat} {l : List Byte} (h : n ≤ runLength b l) :
    List.replicate n b ++ l.drop n = l := by
  induction n generalizing l with
  | zero => rfl
  | succ n ih =>
    cases l with
    | nil => exact absurd h (Nat.not_succ_le_zero n)
    | cons x xs =>
      unfold runLength at h
      split at h
      case isTrue hx => simpa [List.replicate_succ, hx] using ih (Nat.le_of_succ_le_succ h)
      case isFalse => exact absurd h (Nat.not_succ_le_zero n)

/-- A run of `n` bytes `b` in front of `rest` is one token: it is long enough, and it stops because it is full or because
`rest` goes on with another byte. -/
structure RunToken (b : Byte) (n : Nat) (rest : List Byte) : Prop where
  min_le : 3 ≤ n
  le_max : n ≤ 4095
  stops : n = 4095 ∨ runLength b rest = 0

/-- The bytes `a`, `b` in front of `rest` do not begin a run. -/
def NoRun (a b : Byte) (rest : List Byte) : Prop := runLength a (b :: rest) < 2

theorem NoRun.not_minRun_le {a b : Byte} {rest : List Byte} (h : NoRun a b rest) :
    ¬minRun ≤ 1 + runLength a (b :: rest) := by
  unfold NoRun at h
  unfold minRun
  omega

theorem noRun_nil (a b : Byte) : NoRun a b [] := Nat.lt_succ_of_le (runLength_le_length a [b])

theorem noRun_cons {a b c : Byte} (h : ¬(a = b ∧ b = c)) (rest : List Byte) : NoRun a b (c :: rest) := by
  unfold NoRun runLength runLength
  split_ifs with hb hc
  · exact absurd ⟨hb.symm, hb.trans hc.symm⟩ h
  · exact Nat.one_lt_two
  · exact Nat.zero_lt_two

/-! ### Bytes below 128 -/

theorem isAscii_iff (b : Byte) : isAscii b = true ↔ b.toNat < 128 := by
  have hmsb : isAscii b = !b.msb := by rw [BitVec.msb_eq_getLsbD_last]; rfl
  rw [hmsb, BitVec.msb_eq_decide, Bool.not_eq_true', decide_eq_false_iff_not, Nat.not_le]

theorem both_isAscii_iff (a b : Byte) : (isAscii a && isAscii b) = true ↔ a.toNat < 128 ∧ b.toNat < 128 := by
  rw [Bool.and_eq_true, isAscii_iff, isAscii_iff]

/-! ### The equations -/

/-- Fuel beyond the length of the input changes nothing. -/
theorem encodeTokens_eq_of_length_le {n m : Nat} {l : List Byte} (hn : l.length ≤ n) (hm : l.length ≤ m) :
    encodeTokens n l = encodeTokens m l := by
  induction n generalizing m l with
  | zero =>
    obtain rfl := List.length_eq_zero_iff.mp (Nat.le_zero.mp hn)
    cases m <;> rfl
  | succ n ih =>
    cases l with
    | nil => cases m <;> rfl
    | cons w0 rest =>
      obtain ⟨m, rfl⟩ : ∃ k, m = k + 1 := Nat.exists_eq_succ_of_ne_zero (by rintro rfl; simp at hm)
      simp only [List.length_cons, Nat.add_le_add_iff_right] at hn hm
      have htail (t : List Byte) (ht : t.length ≤ rest.length) : encodeTokens n t = encodeTokens m t :=
        ih (ht.trans hn) (ht.trans hm)
      unfold encodeTokens
      extract_lets r
      split
      case isTrue => rw [htail _ (by simp)]
      case isFalse =>
        match rest, htail with
        | [], _ => rfl
        | [w1], htail => simp only [htail [w1] (le_refl _)]
        | w1 :: w2 :: rest2, htail => simp only [htail (w2 :: rest2) (by simp), htail rest2 (by simp; omega)]

theorem encodeTokens_eq_encodeBytes {n : Nat} {l : List Byte} (h : l.length ≤ n) : encodeTokens n l = encodeBytes l :=
  encodeTokens_eq_of_length_le h (le_refl _)

@[simp] theorem encodeBytes_nil : encodeBytes [] = [] := rfl

@[simp] theorem encodeBytes_one (a : Byte) : encodeBytes [a] = [toU8 a] := rfl

theorem encodeBytes_run {b : Byte} {n : Nat} {rest : List Byte} (h : RunToken b n rest) :
    encodeBytes (List.replicate n b ++ rest) = toU8 b :: toU12 (BitVec.ofNat 12 n) :: encodeBytes rest := by
  obtain ⟨hge, hle, hstop⟩ := h
  obtain ⟨k, rfl⟩ : ∃ k, n = k + 1 := Nat.exists_eq_succ_of_ne_zero (by omega)
  have hr : 1 + runLength b (List.replicate k b ++ rest) = k + 1 + runLength b rest := by
    rw [runLength_replicate_append]
    omega
  have hmin : min (k + 1 + runLength b rest) maxRun = k + 1 := by
    unfold maxRun
    omega
  have hlong : minRun ≤ k + 1 + runLength b rest := by
    unfold minRun
    omega
  rw [List.replicate_succ, List.cons_append, encodeBytes, List.length_cons]
  unfold encodeTokens
  simp only [hr, hmin, if_pos hlong, Nat.add_sub_cancel]
  rw [List.drop_left' List.length_replicate, encodeTokens_eq_encodeBytes (by simp)]

theorem encodeBytes_apair {a b : Byte} {rest : List Byte} (h : NoRun a b rest) (ha : isAscii a = true)
    (hb : isAscii b = true) : encodeBytes (a :: b :: rest) = apackBytes a b :: encodeBytes rest := by
  have hshort := h.not_minRun_le
  rw [encodeBytes, List.length_cons]
  unfold encodeTokens
  simp only [if_neg hshort]
  cases rest with
  | nil => simp [ha, hb]
  | cons c rest => simp [ha, hb, encodeTokens_eq_encodeBytes]

theorem encodeBytes_triple {a b c : Byte} {rest : List Byte} (h : ¬(a = b ∧ b = c))
    (hab : (isAscii a && isAscii b) = false) :
    encodeBytes (a :: b :: c :: rest) =
      toU12 (tpack a b c).1 :: toU12 (tpack a b c).2 :: encodeBytes rest := by
  have hshort := (noRun_cons h rest).not_minRun_le
  have hfuel : encodeTokens (b :: c :: rest).length rest = encodeBytes rest :=
    encodeTokens_eq_encodeBytes (by simp; omega)
  rw [encodeBytes, List.length_cons, encodeTokens]
  simp only [if_neg hshort, hab, hfuel]
  rfl

theorem encodeBytes_singles {a b : Byte} (hab : (isAscii a && isAscii b) = false) :
    encodeBytes [a, b] = [toU8 a, toU8 b] := by
  have hshort := (noRun_nil a b).not_minRun_le
  rw [encodeBytes, List.length_cons, encodeTokens]
  simp only [if_neg hshort, hab]
  rfl

/-! ### The induction -/

/-- Three equal bytes begin a run token. -/
theorem exists_runToken (a : Byte) (l : List Byte) :
    ∃ n rest, a :: a :: a :: l = List.replicate n a ++ rest ∧ RunToken a n rest := by
  set w := a :: a :: a :: l with hw
  have hr : 3 ≤ runLength a w := by simp [hw, runLength_cons_self]
  have hsplit := replicate_append_drop_of_le_runLength (l := w) (Nat.min_le_left (runLength a w) 4095)
  have hadd := runLength_replicate_append a (min (runLength a w) 4095) (w.drop (min (runLength a w) 4095))
  rw [hsplit] at hadd
  exact ⟨_, _, hsplit.symm, by omega, by omega, by omega⟩

/-- Induction along the tokens of `encode`: nothing, a run, an ascii pair, a triple, or the one or two singles that only
the end of the input can give. -/
theorem encode_induction {motive : List Byte → Prop} (nil : motive [])
    (run : ∀ b n rest, RunToken b n rest → motive rest → motive (List.replicate n b ++ rest))
    (apair : ∀ a b rest, NoRun a b rest → isAscii a = true → isAscii b = true → motive rest → motive (a :: b :: rest))
    (triple : ∀ a b c rest, ¬(a = b ∧ b = c) → (isAscii a && isAscii b) = false → motive rest →
      motive (a :: b :: c :: rest))
    (single : ∀ a, motive [a])
    (singles : ∀ a b, (isAscii a && isAscii b) = false → motive [a, b]) (l : List Byte) : motive l := by
  induction hlen : l.length using Nat.strong_induction_on generalizing l with
  | _ len ih =>
    subst hlen
    match l, ih with
    | [], _ => exact nil
    | [a], _ => exact single a
    | [a, b], ih =>
      cases hab : isAscii a && isAscii b with
      | false => exact singles a b hab
      | true =>
        obtain ⟨ha, hb⟩ := Bool.and_eq_true_iff.mp hab
        exact apair a b [] (noRun_nil a b) ha hb nil
    | a :: b :: c :: rest, ih =>
      by_cases heq : a = b ∧ b = c
      · obtain ⟨rfl, rfl⟩ := heq
        obtain ⟨n, tail, hl, htoken⟩ := exists_runToken a rest
        have hge := htoken.min_le
        rw [hl]
        refine run a n tail htoken (ih _ ?_ tail rfl)
        rw [hl, List.length_append, List.length_replicate]
        omega
      · cases hab : isAscii a && isAscii b with
        | false => exact triple a b c rest heq hab (ih _ (by simp; omega) rest rfl)
        | true =>
          obtain ⟨ha, hb⟩ := Bool.and_eq_true_iff.mp hab
          exact apair a b (c :: rest) (noRun_cons heq rest) ha hb (ih _ (by simp) (c :: rest) rfl)

theorem length_encodeBytes_le (l : List Byte) : (encodeBytes l).length ≤ l.length := by
  induction l using encode_induction with
  | nil => exact le_refl 0
  | run b n rest htoken ih =>
    have hge := htoken.min_le
    rw [encodeBytes_run htoken]
    simp
    omega
  | apair a b rest hno ha hb ih =>
    rw [encodeBytes_apair hno ha hb]
    simp
    omega
  | triple a b c rest hne hab ih =>
    rw [encodeBytes_triple hne hab]
    simp
    omega
  | single a => exact le_refl 1
  | singles a b hab => rw [encodeBytes_singles hab]; exact le_refl 2

/-- Every scalar of `encode` lies in a range (R171). -/
theorem inRange_of_mem_encodeBytes {l : List Byte} {s : Scalar} (h : s ∈ encodeBytes l) : inRange s = true := by
  induction l using encode_induction with
  | nil => simp at h
  | run b n rest htoken ih =>
    rw [encodeBytes_run htoken] at h
    simp only [List.mem_cons] at h
    obtain rfl | rfl | h := h
    · exact inRange_toU8 b
    · exact inRange_toU12 _
    · exact ih h
  | apair a b rest hno ha hb ih =>
    rw [encodeBytes_apair hno ha hb, List.mem_cons] at h
    obtain rfl | h := h
    · exact inRange_apackBytes a b
    · exact ih h
  | triple a b c rest hne hab ih =>
    rw [encodeBytes_triple hne hab] at h
    simp only [List.mem_cons] at h
    obtain rfl | rfl | h := h
    · exact inRange_toU12 _
    · exact inRange_toU12 _
    · exact ih h
  | single a => simp_all [inRange_toU8]
  | singles a b hab =>
    rw [encodeBytes_singles hab] at h
    simp only [List.mem_cons, List.not_mem_nil, or_false] at h
    obtain rfl | rfl := h
    · exact inRange_toU8 _
    · exact inRange_toU8 _

end Sys2Proof.Machine
end

section
/-! SUPPORT. What the batch decoder makes of each token of the encoder, and with it the round trip (R173). -/

namespace Sys2Proof.Machine

/-! ### The classes of the tokens' scalars -/

theorem cls_toU8 (lb : List Scalar) (b : Byte) : cls lb (toU8 b) = 1#3 := by
  have hb := b.isLt
  rw [cls_eq_u8_iff, toU8_eq_ofNat, BitVec.toNat_ofNat]
  omega

theorem cls_toU12 (lb : List Scalar) (n : BitVec 12) : cls lb (toU12 n) = 2#3 := by
  have hn := n.isLt
  have h := (cls_eq_wideCode_iff lb (toU12 n) (k := 0) (by decide)).mpr (by
    rw [toU12_eq_ofNat, BitVec.toNat_ofNat]
    omega)
  exact h

theorem inU12a_apackBytes (lb : List Scalar) (a b : Byte) : inU12a lb (apackBytes a b) = true := by
  rw [inU12a_iff, apackBytes, toNat_apack]
  omega

theorem inLB_of_inRange {lb : List Scalar} {s : Scalar} (h : inRange s = true) : inLB lb s = false := by
  simp only [inRange, bne_iff_ne, ne_eq, cls_eq_none_iff, List.not_mem_nil, not_false_eq_true, true_and] at h
  simp only [inLB, beq_eq_false_iff_ne, ne_eq, cls_eq_lineBreak_iff]
  exact fun hlb => h hlb.2

theorem aunpackBytes_apackBytes {a b : Byte} (ha : isAscii a = true) (hb : isAscii b = true) :
    aunpackBytes (apackBytes a b) = [a, b] := by
  have hsame {x : Byte} (hx : isAscii x = true) : (x.setWidth 7).setWidth 8 = x := by
    have := (isAscii_iff x).mp hx
    bv_omega
  rw [aunpackBytes, apackBytes, aunpack_apack, hsame ha, hsame hb]

/-! ### Units -/

theorem decodeUnits_apair {u : Scalar} {lb : List Scalar} (h : inU12a lb u = true) (i : Nat) (rest : List Scalar) :
    decodeUnits lb i (u :: rest) =
      (aunpackBytes u ++ (decodeUnits lb (i + 1) rest).1, (decodeUnits lb (i + 1) rest).2) := by
  cases rest <;> simp [decodeUnits, h]

theorem decodeUnits_run (lb : List Scalar) (i : Nat) (b : Byte) (n : BitVec 12) (rest : List Scalar) :
    decodeUnits lb i (toU8 b :: toU12 n :: rest) =
      (List.replicate n.toNat b ++ (decodeUnits lb (i + 2) rest).1, (decodeUnits lb (i + 2) rest).2) := by
  simp [decodeUnits, inU12a, inU12, inU8, cls_toU8, cls_toU12, fromU8_toU8, fromU12_toU12]

theorem decodeUnits_triple (lb : List Scalar) (i : Nat) (a b c : Byte) (rest : List Scalar) :
    decodeUnits lb i (toU12 (tpack a b c).1 :: toU12 (tpack a b c).2 :: rest) =
      ([a, b, c] ++ (decodeUnits lb (i + 2) rest).1, (decodeUnits lb (i + 2) rest).2) := by
  simp [decodeUnits, inU12a, inU12, cls_toU12, fromU12_toU12, tunpack_tpack]

theorem decodeUnits_single (lb : List Scalar) (i : Nat) (a : Byte) : decodeUnits lb i [toU8 a] = ([a], none) := by
  simp [decodeUnits, inU12a, inU8, cls_toU8, fromU8_toU8]

theorem decodeUnits_singles (lb : List Scalar) (i : Nat) (a b : Byte) :
    decodeUnits lb i [toU8 a, toU8 b] = ([a, b], none) := by
  simp [decodeUnits, inU12a, inU12, inU8, cls_toU8, fromU8_toU8]

/-- From any index, the units that `encode` made give back its bytes without failure. -/
theorem decodeUnits_encodeBytes (lb : List Scalar) (i : Nat) (l : List Byte) :
    decodeUnits lb i (encodeBytes l) = (l, none) := by
  induction l using encode_induction generalizing i with
  | nil => rfl
  | run b n rest htoken ih =>
    have hle := htoken.le_max
    have hn : (BitVec.ofNat 12 n).toNat = n := by
      rw [BitVec.toNat_ofNat]
      omega
    rw [encodeBytes_run htoken, decodeUnits_run, ih, hn]
  | apair a b rest hno ha hb ih =>
    rw [encodeBytes_apair hno ha hb, decodeUnits_apair (inU12a_apackBytes lb a b), ih, aunpackBytes_apackBytes ha hb]
    rfl
  | triple a b c rest hne hab ih =>
    rw [encodeBytes_triple hne hab, decodeUnits_triple, ih]
    rfl
  | single a => exact decodeUnits_single lb i a
  | singles a b hab => rw [encodeBytes_singles hab, decodeUnits_singles]

/-- No scalar of `encode` is taken for a line break. -/
theorem stripLineBreaks_encodeBytes (lb : List Scalar) (l : List Byte) :
    stripLineBreaks lb (encodeBytes l) = encodeBytes l := by
  refine List.filter_eq_self.mpr fun s hs => ?_
  rw [inLB_of_inRange (inRange_of_mem_encodeBytes hs)]
  rfl

/-- Settles O28: `encode` writes no line break, and each of its tokens decodes to the bytes it stands for. -/
theorem decodeUndoesEncode : Obligations.DecodeUndoesEncode := by
  intro lb bytes
  rw [decodeScalars, stripLineBreaks_encodeBytes, decodeUnits_encodeBytes]

end Sys2Proof.Machine
end

section
/-! SUPPORT. ENC's two beats as equations: the row each window selects, what deciding and flushing a window emit, and with
them ENC.PUSH in RUN mode and ENC.END. -/

namespace Sys2Proof.Machine

variable {b : Build} {e : Enc} {s : State}

/-! ### Rows -/

theorem encRow_esel_one (x : Byte) : encRow (esel [x]) = some .single := by
  have hrow : ∀ a0 : Bool, encRow (BitVec.ofBool false ++ BitVec.ofBool false ++ BitVec.ofBool false ++
      BitVec.ofBool false ++ BitVec.ofBool a0) = some .single := by decide
  exact hrow (isAscii x)

theorem encRow_esel_two (x y : Byte) :
    encRow (esel [x, y]) = some (if (isAscii x && isAscii y) = true then .apair else .single) := by
  have hrow : ∀ a1 a0 : Bool, encRow (BitVec.ofBool false ++ BitVec.ofBool true ++ BitVec.ofBool false ++
      BitVec.ofBool a1 ++ BitVec.ofBool a0) = some (if (a0 && a1) = true then .apair else .single) := by decide
  exact hrow (isAscii y) (isAscii x)

theorem encRow_esel_three (x y z : Byte) :
    encRow (esel [x, y, z]) =
      some (if x = y ∧ y = z then .run else if (isAscii x && isAscii y) = true then .apair else .triple) := by
  have hrow : ∀ r a1 a0 : Bool, encRow (BitVec.ofBool true ++ BitVec.ofBool true ++ BitVec.ofBool r ++
      BitVec.ofBool a1 ++ BitVec.ofBool a0) =
      some (if r = true then .run else if (a0 && a1) = true then .apair else .triple) := by decide
  have hsel := hrow (x == y && y == z) (isAscii y) (isAscii x)
  simp only [Bool.and_eq_true, beq_iff_eq] at hsel ⊢
  exact hsel

theorem decideWindow_one (b : Build) (e : Enc) (x : Byte) : decideWindow b e [x] = (encEmit b e (toU8 x), []) :=
  decideWindow_of_row (encRow_esel_one x) b e

theorem decideWindow_two (b : Build) (e : Enc) (x y : Byte) :
    decideWindow b e [x, y] =
      if (isAscii x && isAscii y) = true then (encEmit b e (apackBytes x y), []) else (encEmit b e (toU8 x), [y]) := by
  rw [decideWindow_of_row (encRow_esel_two x y)]
  split <;> rfl

theorem decideWindow_three (b : Build) (e : Enc) (x y z : Byte) :
    decideWindow b e [x, y, z] =
      if x = y ∧ y = z then ({ e with mode := .run, rb := x, rc := 3#12, wcnt := 0#2 }, [])
      else if (isAscii x && isAscii y) = true then (encEmit b e (apackBytes x y), [z])
      else (encEmit b (encEmit b e (toU12 (tpack x y z).1)) (toU12 (tpack x y z).2), []) := by
  rw [decideWindow_of_row (encRow_esel_three x y z)]
  split_ifs <;> rfl

/-! ### What END finds -/

theorem flushWindow_cons (b : Build) (n : Nat) (e : Enc) (x : Byte) (w : List Byte) :
    flushWindow b (n + 1) e (x :: w) =
      flushWindow b n (decideWindow b e (x :: w)).1 (decideWindow b e (x :: w)).2 := rfl

theorem flushWindow_one (b : Build) (e : Enc) (x : Byte) : flushWindow b 2 e [x] = encEmit b e (toU8 x) := by
  rw [flushWindow_cons, decideWindow_one, flushWindow_nil]

theorem flushWindow_two (b : Build) (e : Enc) (x y : Byte) :
    flushWindow b 2 e [x, y] =
      if (isAscii x && isAscii y) = true then encEmit b e (apackBytes x y)
      else encEmit b (encEmit b e (toU8 x)) (toU8 y) := by
  rw [flushWindow_cons, decideWindow_two]
  split
  · exact flushWindow_nil b 1 _
  · rw [flushWindow_cons, decideWindow_one, flushWindow_nil]

theorem heldWindow_zero (h : e.wcnt = 0#2) : heldWindow e = [] := by simp [heldWindow, h]

theorem heldWindow_one (h : e.wcnt = 1#2) : heldWindow e = [e.w0] := by simp [heldWindow, h]

theorem heldWindow_two (h : e.wcnt = 2#2) : heldWindow e = [e.w0, e.w1] := by simp [heldWindow, h]

/-! ### The beats in BUSY -/

theorem exec_encPush_busy (h : s.enc.phase = .busy) (x : Byte) :
    exec (.encPush x) s = acceptEnc s (pushByte s.build s.enc x) := if_pos h

theorem exec_encEnd_busy (h : s.enc.phase = .busy) (data : Byte) :
    exec (.encEnd data) s = acceptEnc s (endInput s.build s.enc) := if_pos h

/-- Settles O19: the run grows while the byte and the count allow it. -/
theorem encPushExtendsOrClosesARun : Obligations.EncPushExtendsOrClosesARun := by
  intro x s hbusy hrun
  have hsucc : s.enc.rc + 1#12 = BitVec.ofNat 12 (s.enc.rc.toNat + 1) := by
    rw [BitVec.ofNat_add, BitVec.ofNat_toNat, BitVec.setWidth_eq]
  rw [exec_encPush_busy hbusy, pushByte_run hrun, pushRun, countIn_rb, countIn_rc, hsucc]
  rfl

/-- Settles O20: an open run is closed; else the window is flushed, by the number of its bytes. -/
theorem encEndFlushesWhatIsHeld : Obligations.EncEndFlushesWhatIsHeld := by
  intro data s hbusy
  rw [exec_encEnd_busy hbusy]
  refine ⟨rfl, ?run, ?none, ?one, ?two⟩
  case run =>
    intro hrun
    rw [endInput_run hrun]
    rfl
  case none =>
    intro hwin h0
    rw [endInput_win hwin, heldWindow_zero h0, flushWindow_nil, ← h0]
    rfl
  case one =>
    intro hwin h1
    rw [endInput_win hwin, heldWindow_one h1, flushWindow_one]
    rfl
  case two =>
    intro hwin h2
    rw [endInput_win hwin, heldWindow_two h2, flushWindow_two]
    simp only [← both_isAscii_iff]
    split <;> rfl

end Sys2Proof.Machine
end

section
/-! SUPPORT. ENC as a tokenizer: the bytes it holds without output, in front of the bytes still to come, encode to what it
has still to emit. START, the pushes and END keep that sum, so a transaction emits `encode` of its bytes (R172). -/

namespace Sys2Proof.Machine

variable {b : Build} {e : Enc} {s : State}

/-! ### The bytes held -/

/-- The bytes ENC has taken and not yet emitted: the run it counts, or its window (R23). -/
def encHeld (e : Enc) : List Byte := if e.mode = .run then List.replicate e.rc.toNat e.rb else heldWindow e

theorem encHeld_run (h : e.mode = .run) : encHeld e = List.replicate e.rc.toNat e.rb := if_pos h

theorem encHeld_win (h : e.mode = .win) : encHeld e = heldWindow e := if_neg (by simp [h])

theorem encHeld_zero (h : e.mode = .win) (h0 : e.wcnt = 0#2) : encHeld e = [] :=
  (encHeld_win h).trans (heldWindow_zero h0)

theorem encHeld_one (h : e.mode = .win) (h1 : e.wcnt = 1#2) : encHeld e = [e.w0] :=
  (encHeld_win h).trans (heldWindow_one h1)

theorem encHeld_two (h : e.mode = .win) (h2 : e.wcnt = 2#2) : encHeld e = [e.w0, e.w1] :=
  (encHeld_win h).trans (heldWindow_two h2)

/-- What a transaction will have emitted when `rest` is still to be pushed. -/
def encFinal (e : Enc) (rest : List Byte) : List Scalar := e.out ++ encodeBytes (encHeld e ++ rest)

/-! ### A push keeps the sum -/

theorem pushRun_encFinal (hrun : e.mode = .run) (hrc : 3 ≤ e.rc.toNat) (x : Byte) (rest : List Byte) :
    encFinal (pushRun b e x) rest = encFinal e (x :: rest) := by
  unfold pushRun
  split
  case isTrue hgrow =>
    obtain ⟨rfl, hlt⟩ := hgrow
    have hsucc : (e.rc + 1#12).toNat = e.rc.toNat + 1 := by bv_omega
    have hheld : encHeld { e with rc := e.rc + 1#12 } = encHeld e ++ [e.rb] := by
      rw [encHeld_run hrun, encHeld_run (e := { e with rc := e.rc + 1#12 }) hrun, hsucc, List.replicate_succ']
    rw [encFinal, hheld, List.append_assoc]
    rfl
  case isFalse hclose =>
    have htoken : RunToken e.rb e.rc.toNat (x :: rest) := by
      refine ⟨hrc, by bv_omega, ?_⟩
      by_cases hx : x = e.rb
      · exact .inl (by bv_omega)
      · exact .inr (if_neg hx)
    have hheld : encHeld { closeRun b e with w0 := x, wcnt := 1#2 } = [x] := rfl
    rw [encFinal, encFinal, hheld, encHeld_run hrun, encodeBytes_run htoken, BitVec.ofNat_toNat, BitVec.setWidth_eq]
    simp [closeRun]

/-- The byte left over, if any, is all that is held. -/
theorem keepRest_encFinal (hwin : e.mode = .win) {w : List Byte} (hw : w.length ≤ 1) (rest : List Byte) :
    encFinal (keepRest e w) rest = e.out ++ encodeBytes (w ++ rest) := by
  match w, hw with
  | [], _ => rw [keepRest_nil hwin, encFinal, encHeld_zero (e := { e with wcnt := 0#2 }) hwin rfl]
  | [x], _ => rw [keepRest_one hwin, encFinal, encHeld_one (e := { e with wcnt := 1#2, w0 := x }) hwin rfl]

/-- A full window is decided: its token comes first in `encode` of its bytes and whatever follows. -/
theorem pushFull_encFinal (hwin : e.mode = .win) (hfull : e.wcnt = 2#2) (x : Byte) (rest : List Byte) :
    encFinal (keepRest (decideWindow b e [e.w0, e.w1, x]).1 (decideWindow b e [e.w0, e.w1, x]).2) rest =
      encFinal e (x :: rest) := by
  have hheld : encHeld e ++ x :: rest = e.w0 :: e.w1 :: x :: rest := by
    rw [encHeld_two hwin hfull]
    rfl
  rw [encFinal, encFinal, hheld, decideWindow_three]
  split
  case isTrue hrun =>
    obtain ⟨h01, h12⟩ := hrun
    rw [keepRest_run rfl, encHeld_run rfl, ← h12, ← h01]
    rfl
  case isFalse hrun =>
    split
    case isTrue hab =>
      obtain ⟨ha, hb⟩ := Bool.and_eq_true_iff.mp hab
      rw [encodeBytes_apair (noRun_cons hrun rest) ha hb]
      have hkeep := keepRest_encFinal (e := encEmit b e (apackBytes e.w0 e.w1)) hwin (w := [x]) (le_refl 1) rest
      exact hkeep.trans (List.append_assoc ..)
    case isFalse hab =>
      rw [encodeBytes_triple hrun (by simpa using hab)]
      have hkeep := keepRest_encFinal
        (e := encEmit b (encEmit b e (toU12 (tpack e.w0 e.w1 x).1)) (toU12 (tpack e.w0 e.w1 x).2)) hwin (w := [])
        (Nat.zero_le 1) rest
      exact hkeep.trans (by simp)

theorem pushWin_encFinal (hwin : e.mode = .win) (hle : e.wcnt.toNat ≤ 2) (x : Byte) (rest : List Byte) :
    encFinal (pushWin b e x) rest = encFinal e (x :: rest) := by
  unfold pushWin
  split
  case isTrue h0 =>
    have hnext : encHeld { e with w0 := x, wcnt := 1#2 } = [x] := encHeld_one hwin rfl
    rw [encFinal, encFinal, hnext, encHeld_zero hwin h0]
    rfl
  case isFalse h0 =>
    split
    case isTrue h1 =>
      have hnext : encHeld { e with w1 := x, wcnt := 2#2 } = [e.w0, x] := encHeld_two hwin rfl
      rw [encFinal, encFinal, hnext, encHeld_one hwin h1]
      rfl
    case isFalse h1 => exact pushFull_encFinal hwin (by bv_omega) x rest

theorem pushByte_encFinal (h : EncControlOk e) (x : Byte) (rest : List Byte) :
    encFinal (pushByte b e x) rest = encFinal e (x :: rest) := by
  cases hm : e.mode with
  | run =>
    obtain ⟨-, hrc, -⟩ := h.run_mode hm
    rw [pushByte_run hm]
    exact pushRun_encFinal (e := countIn b e) hm hrc x rest
  | win =>
    rw [pushByte_win hm]
    exact pushWin_encFinal (e := countIn b e) hm (h.win_mode hm) x rest

/-! ### What END emits -/

/-- The loop of END emits `encode` of a window of no, one or two bytes. -/
theorem flushWindow_out (b : Build) (e : Enc) {w : List Byte} (hw : w.length ≤ 2) :
    (flushWindow b 2 e w).out = e.out ++ encodeBytes w := by
  match w, hw with
  | [], _ => simp
  | [x], _ => simp [flushWindow_one]
  | [x, y], _ =>
    rw [flushWindow_two]
    split
    case isTrue hab =>
      obtain ⟨ha, hb⟩ := Bool.and_eq_true_iff.mp hab
      rw [encodeBytes_apair (noRun_nil x y) ha hb]
      rfl
    case isFalse hab =>
      rw [encodeBytes_singles (by simpa using hab)]
      simp

theorem endInput_out (h : EncControlOk e) : (endInput b e).out = encFinal e [] := by
  rw [encFinal, List.append_nil]
  cases hm : e.mode with
  | run =>
    obtain ⟨-, hge, hle⟩ := h.run_mode hm
    have htoken : RunToken e.rb e.rc.toNat [] := ⟨hge, hle, .inr rfl⟩
    have hrun := encodeBytes_run htoken
    rw [List.append_nil, BitVec.ofNat_toNat, BitVec.setWidth_eq] at hrun
    rw [endInput_run hm, encHeld_run hm, hrun]
    simp [closeRun]
  | win =>
    rw [endInput_win hm, encHeld_win hm]
    exact flushWindow_out b e (heldWindow_length_le e)

/-! ### Phase and input count -/

theorem keepRest_frame (e : Enc) (rest : List Byte) :
    (keepRest e rest).phase = e.phase ∧ (keepRest e rest).inCount = e.inCount ∧ (keepRest e rest).out = e.out := by
  unfold keepRest
  split <;> exact ⟨rfl, rfl, rfl⟩

theorem decideWindow_frame (b : Build) (e : Enc) (w : List Byte) :
    (decideWindow b e w).1.phase = e.phase ∧ (decideWindow b e w).1.inCount = e.inCount := by
  obtain ⟨row, -, hrow⟩ | hnone := decideWindow_cases b e w
  · rw [hrow]
    obtain ⟨hphase, hcount, -, -⟩ := tokenAction_frame b e row w
    exact ⟨hphase, hcount⟩
  · rw [hnone]
    exact ⟨rfl, rfl⟩

theorem flushWindow_inCount (b : Build) (n : Nat) (e : Enc) (w : List Byte) :
    (flushWindow b n e w).inCount = e.inCount := by
  induction n generalizing e w with
  | zero => rfl
  | succ n ih =>
    cases w with
    | nil => rfl
    | cons x w =>
      obtain ⟨-, hcount⟩ := decideWindow_frame b e (x :: w)
      exact (ih _ _).trans hcount

theorem pushRun_frame (b : Build) (e : Enc) (x : Byte) :
    (pushRun b e x).phase = e.phase ∧ (pushRun b e x).inCount = e.inCount := by
  unfold pushRun
  split <;> exact ⟨rfl, rfl⟩

theorem pushWin_frame (b : Build) (e : Enc) (x : Byte) :
    (pushWin b e x).phase = e.phase ∧ (pushWin b e x).inCount = e.inCount := by
  unfold pushWin
  split
  · exact ⟨rfl, rfl⟩
  split
  · exact ⟨rfl, rfl⟩
  · obtain ⟨hphase, hcount⟩ := decideWindow_frame b e [e.w0, e.w1, x]
    obtain ⟨hphase', hcount', -⟩ :=
      keepRest_frame (decideWindow b e [e.w0, e.w1, x]).1 (decideWindow b e [e.w0, e.w1, x]).2
    exact ⟨hphase'.trans hphase, hcount'.trans hcount⟩

theorem pushByte_frame (b : Build) (e : Enc) (x : Byte) :
    (pushByte b e x).phase = e.phase ∧ (pushByte b e x).inCount = countUp b.cntW e.inCount := by
  cases hm : e.mode with
  | run => rw [pushByte_run hm]; exact pushRun_frame b (countIn b e) x
  | win => rw [pushByte_win hm]; exact pushWin_frame b (countIn b e) x

theorem endInput_inCount (b : Build) (e : Enc) : (endInput b e).inCount = e.inCount := by
  cases hm : e.mode with
  | run => rw [endInput_run hm]; rfl
  | win => rw [endInput_win hm]; exact flushWindow_inCount b 2 e _

/-! ### A transaction of the unit -/

/-- The unit after the pushes of a byte sequence. -/
def pushBytes (b : Build) (e : Enc) (l : List Byte) : Enc := l.foldl (pushByte b) e

theorem pushBytes_phase (b : Build) (e : Enc) (l : List Byte) : (pushBytes b e l).phase = e.phase := by
  induction l generalizing e with
  | nil => rfl
  | cons x l ih =>
    obtain ⟨hphase, -⟩ := pushByte_frame b e x
    exact (ih _).trans hphase

theorem pushBytes_inCount (hb : b.cntW ≤ 32) (h : e.inCount.toNat < 2 ^ b.cntW) (l : List Byte) :
    (pushBytes b e l).inCount.toNat = (e.inCount.toNat + l.length) % 2 ^ b.cntW := by
  induction l generalizing e with
  | nil => exact (Nat.mod_eq_of_lt h).symm
  | cons x l ih =>
    obtain ⟨-, hcount⟩ := pushByte_frame b e x
    have hlt := countUp_lt hb e.inCount
    rw [← hcount] at hlt
    have hrest := ih hlt
    rw [hcount, countUp_toNat hb, Nat.mod_add_mod, Nat.add_assoc, Nat.add_comm 1] at hrest
    exact hrest

theorem pushBytes_keeps_encInv (hb : b.cntW ≤ 32) (hbusy : e.phase = .busy) (h : EncInv b e) (l : List Byte) :
    EncInv b (pushBytes b e l) := by
  induction l generalizing e with
  | nil => exact h
  | cons x l ih =>
    obtain ⟨hphase, -⟩ := pushByte_frame b e x
    exact ih (hphase.trans hbusy) (pushByte_keeps_encInv hb hbusy h x)

theorem pushBytes_encFinal (hb : b.cntW ≤ 32) (hbusy : e.phase = .busy) (h : EncInv b e) (l : List Byte) :
    encFinal (pushBytes b e l) [] = encFinal e l := by
  induction l generalizing e with
  | nil => rfl
  | cons x l ih =>
    obtain ⟨hc, -⟩ := encInv_iff.mp h
    obtain ⟨hphase, -⟩ := pushByte_frame b e x
    exact (ih (hphase.trans hbusy) (pushByte_keeps_encInv hb hbusy h x)).trans (pushByte_encFinal hc x l)

/-- ENC after START, the pushes and END. -/
def encTransaction (b : Build) (e : Enc) (l : List Byte) : Enc := endInput b (pushBytes b (startEnc e) l)

theorem encTransaction_phase (b : Build) (e : Enc) (l : List Byte) : (encTransaction b e l).phase = .done := rfl

theorem encTransaction_out (hb : b.cntW ≤ 32) (e : Enc) (l : List Byte) :
    (encTransaction b e l).out = encodeBytes l := by
  have hstart := startEnc_encInv b e
  obtain ⟨hc, -⟩ := encInv_iff.mp (pushBytes_keeps_encInv hb rfl hstart l)
  rw [encTransaction, endInput_out hc, pushBytes_encFinal hb rfl hstart]
  rfl

theorem encTransaction_inCount (hb : b.cntW ≤ 32) (e : Enc) (l : List Byte) :
    (encTransaction b e l).inCount.toNat = l.length % 2 ^ b.cntW := by
  rw [encTransaction, endInput_inCount, pushBytes_inCount hb (Nat.two_pow_pos _), startEnc_inCount]
  simp

/-- OUT_COUNT counts ENC_OUT, by the invariant. -/
theorem encTransaction_outCount (hb : b.cntW ≤ 32) (e : Enc) (l : List Byte) :
    (encTransaction b e l).outCount.toNat = (encodeBytes l).length % 2 ^ b.cntW := by
  have hinv := endInput_keeps_encInv hb (pushBytes_keeps_encInv hb rfl (startEnc_encInv b e) l)
  obtain ⟨-, hs⟩ := encInv_iff.mp hinv
  rw [← encTransaction_out hb e l]
  exact hs.outCount_eq

/-! ### A transaction of the machine -/

theorem decode_encode_encPush (x : Byte) : decode (encode (.encPush x)) = .ok (.encPush x) := by
  have hend : (0#1 ++ x).getLsbD 8 = false := by
    rw [BitVec.getLsbD_append]
    rfl
  have hdata : (0#1 ++ x).extractLsb' 0 8 = x := BitVec.extractLsb'_append_eq_right
  simp only [encode, decode, decodeEncIn, hend, hdata]
  rfl

/-- A step performs the host's next beat; an action that is accepted leaves nothing to hold. -/
theorem step_eq_of_accepted {t : State} {beat : Beat} {rest : List Beat} {i : Instr}
    (hbuild : buildValid s.build = true)
    (hin : s.inputs = beat :: rest) (hdec : decode beat = .ok i) (hexec : exec i { s with inputs := rest } = .next t)
    (hresp : t.resp = .accepted) : step s = .next t := by
  have hfetch : fetch s = some (beat, { s with inputs := rest }) := fetch_eq_some.mpr ⟨rest, hin, rfl⟩
  rw [step, if_pos hbuild, hfetch]
  simp only [hdec, hexec]
  exact holdIfNotAccepted_accepted (by simp [hresp])

theorem run_succ_of_step {t : State} (h : step s = .next t) (n : Nat) :
    Sys2Proof.core.run (n + 1) s = Sys2Proof.core.run n t := by
  have hstep : Sys2Proof.core.step s = .next t := h
  simp only [Host.Core.run, hstep]

/-- Running the pushes of a byte sequence pushes it, and touches nothing but ENC, the answer and the queue. -/
theorem run_encPushSeq (hbuild : buildValid s.build = true) (hbusy : s.enc.phase = .busy) {l : List Byte}
    {rest : List Beat} (hin : s.inputs = encPushSeq l ++ rest) (n : Nat) :
    ∃ r, Sys2Proof.core.run (l.length + n) s =
      Sys2Proof.core.run n { s with enc := pushBytes s.build s.enc l, inputs := rest, resp := r } := by
  induction l generalizing s with
  | nil =>
    obtain rfl : s.inputs = rest := hin
    refine ⟨s.resp, ?_⟩
    rw [List.length_nil, Nat.zero_add]
    rfl
  | cons x l ih =>
    have hexec := exec_encPush_busy (s := { s with inputs := encPushSeq l ++ rest }) hbusy x
    have hstep := step_eq_of_accepted hbuild hin (decode_encode_encPush x) hexec rfl
    obtain ⟨hphase, -⟩ := pushByte_frame s.build s.enc x
    obtain ⟨r, hrun⟩ := ih
      (s := { s with enc := pushByte s.build s.enc x, inputs := encPushSeq l ++ rest, resp := .accepted })
      hbuild (hphase.trans hbusy) rfl
    refine ⟨r, ?_⟩
    rw [List.length_cons, Nat.add_right_comm, run_succ_of_step hstep]
    exact hrun

theorem run_encTxn (hbuild : buildValid s.build = true) (hidle : s.enc.phase ≠ .busy) {l : List Byte}
    {rest : List Beat} (hin : s.inputs = encTxn l ++ rest) :
    Sys2Proof.core.run (l.length + 2) s =
      .next { s with enc := encTransaction s.build s.enc l, inputs := rest, resp := .accepted } := by
  have hqueue : s.inputs = encode (.encStart 0#31) :: (encPushSeq l ++ (encode (.encEnd 0#8) :: rest)) := by
    rw [hin, encTxn, List.cons_append, List.append_assoc]
    rfl
  have hstart : exec (.encStart 0#31) { s with inputs := encPushSeq l ++ (encode (.encEnd 0#8) :: rest) } =
      acceptEnc { s with inputs := encPushSeq l ++ (encode (.encEnd 0#8) :: rest) } (startEnc s.enc) :=
    congrArg (acceptEnc _) (encStartOp_start hidle)
  have hfirst := step_eq_of_accepted hbuild hqueue (by decide) hstart rfl
  obtain ⟨r, hpushes⟩ := run_encPushSeq (rest := encode (.encEnd 0#8) :: rest)
    (s := { s with enc := startEnc s.enc, inputs := _, resp := .accepted }) hbuild rfl rfl 1
  have hbusy := pushBytes_phase s.build (startEnc s.enc) l
  have hend := exec_encEnd_busy
    (s := { s with enc := pushBytes s.build (startEnc s.enc) l, inputs := rest, resp := r }) hbusy 0#8
  have hlast := step_eq_of_accepted
    (s := { s with enc := pushBytes s.build (startEnc s.enc) l, inputs := encode (.encEnd 0#8) :: rest, resp := r })
    hbuild rfl (by decide) hend rfl
  exact (run_succ_of_step hfirst _).trans (hpushes.trans (run_succ_of_step hlast 0))

/-- Settles O25: the machine runs the transaction of the unit, whose pushes keep the sum of what is emitted and what is
still to come. -/
theorem encTransactionComputesEncode : Obligations.EncTransactionComputesEncode := by
  intro s bytes rest hbuild hidle hin
  obtain ⟨-, hb, -⟩ := (buildValid_iff _).mp hbuild
  exact ⟨_, run_encTxn hbuild hidle hin, encTransaction_out hb s.enc bytes, encTransaction_inCount hb s.enc bytes,
    encTransaction_outCount hb s.enc bytes, encTransaction_phase s.build s.enc bytes, rfl, rfl, rfl, rfl⟩

end Sys2Proof.Machine
end

section
/-! SUPPORT. The streams only grow (R55): how much each operation of the two units appends, then each way an action ends,
then each action. -/

namespace Sys2Proof.Machine

/-- ENC appends at most two scalars, each in a range (R171). -/
def EncAppends (e f : Enc) : Prop := ∃ new, f.out = e.out ++ new ∧ new.length ≤ 2 ∧ ∀ x ∈ new, inRange x = true

/-- DEC appends at most 4095 bytes, the longest run, and none in COUNT mode (R202, R221). -/
def DecAppends (d f : Dec) : Prop :=
  ∃ new, f.out = d.out ++ new ∧ new.length ≤ 4095 ∧ (d.cmode = .count → new = [])

section
variable {b : Build} {e f : Enc}

/-! ### ENC -/

theorem encAppends_of_out_eq (h : f.out = e.out) : EncAppends e f := ⟨[], by simp [h], by simp, by simp⟩

theorem encAppends_one {x : Scalar} (h : f.out = e.out ++ [x]) (hx : inRange x = true) : EncAppends e f :=
  ⟨[x], h, by simp, by simp [hx]⟩

theorem encAppends_two {x y : Scalar} (h : f.out = e.out ++ [x] ++ [y]) (hx : inRange x = true)
    (hy : inRange y = true) : EncAppends e f :=
  ⟨[x, y], by simp [h], by simp, by simp [hx, hy]⟩

theorem closeRun_appends (b : Build) (e : Enc) : EncAppends e (closeRun b e) :=
  encAppends_two rfl (inRange_toU8 _) (inRange_toU12 _)

theorem tokenAction_appends (b : Build) (e : Enc) (row : EncRow) (w : List Byte) :
    EncAppends e (tokenAction b e row w).1 := by
  cases row with
  | run => exact encAppends_of_out_eq rfl
  | apair => exact encAppends_one rfl (inRange_apackBytes _ _)
  | triple => exact encAppends_two rfl (inRange_toU12 _) (inRange_toU12 _)
  | single => exact encAppends_one rfl (inRange_toU8 _)

theorem keepRest_appends (h : EncAppends e f) (rest : List Byte) : EncAppends e (keepRest f rest) := by
  obtain ⟨-, -, hout⟩ := keepRest_frame f rest
  obtain ⟨new, hnew, hlen, hrange⟩ := h
  exact ⟨new, hout.trans hnew, hlen, hrange⟩

theorem decideWindow_appends (b : Build) (e : Enc) (w : List Byte) : EncAppends e (decideWindow b e w).1 := by
  obtain ⟨row, -, hrow⟩ | hnone := decideWindow_cases b e w
  · rw [hrow]
    exact tokenAction_appends b e row w
  · rw [hnone]
    exact encAppends_of_out_eq rfl

theorem pushByte_appends (b : Build) (e : Enc) (x : Byte) : EncAppends e (pushByte b e x) := by
  cases hm : e.mode with
  | run =>
    rw [pushByte_run hm, pushRun]
    split
    · exact encAppends_of_out_eq rfl
    · exact closeRun_appends b (countIn b e)
  | win =>
    rw [pushByte_win hm, pushWin]
    split
    · exact encAppends_of_out_eq rfl
    split
    · exact encAppends_of_out_eq rfl
    · exact keepRest_appends (decideWindow_appends b (countIn b e) _) _

theorem endInput_appends (b : Build) (e : Enc) : EncAppends e (endInput b e) := by
  cases hm : e.mode with
  | run => rw [endInput_run hm]; exact closeRun_appends b e
  | win =>
    rw [endInput_win hm]
    have hheld := heldWindow_length_le e
    exact ⟨encodeBytes (heldWindow e), flushWindow_out b e hheld, (length_encodeBytes_le _).trans hheld,
      fun _ => inRange_of_mem_encodeBytes⟩

theorem encStartOp_appends (h : e.phase = .busy) : EncAppends e (encStartOp e) := by
  rw [encStartOp_busy h]
  exact encAppends_of_out_eq rfl

end

section
variable {b : Build} {d f : Dec}

/-! ### DEC -/

theorem decAppends_of_out_eq (h : f.out = d.out) : DecAppends d f := ⟨[], by simp [h], by simp, by simp⟩

theorem decOuts_appends (b : Build) (d : Dec) {xs : List Byte} (hxs : xs.length ≤ 4095) :
    DecAppends d (decOuts b d xs) := by
  cases hm : d.cmode with
  | emit => exact ⟨xs, decOuts_out_emit b d xs hm, hxs, by simp [hm]⟩
  | count => exact decAppends_of_out_eq (decOuts_out_count b d xs hm)

theorem outApair_appends (b : Build) (d : Dec) (s : Scalar) : DecAppends d (outApair b d s) :=
  decOuts_appends b d (by simp [aunpackBytes])

/-- Emitting what a pending scalar stood for. -/
theorem decOuts_consume_appends (b : Build) (d : Dec) {xs : List Byte} (hxs : xs.length ≤ 4095) :
    DecAppends d { decOuts b d xs with pv := false } := decOuts_appends b d hxs

theorem outTriple_appends (b : Build) (d : Dec) (s : Scalar) : DecAppends d (outTriple b d s) :=
  decOuts_consume_appends b d (by simp)

theorem outRun_appends (b : Build) (d : Dec) (s : Scalar) : DecAppends d (outRun b d s) := by
  have hlen := (fromU12 s).isLt
  exact decOuts_consume_appends b d (by rw [List.length_replicate]; omega)

theorem outSs_appends (b : Build) (d : Dec) (s : Scalar) : DecAppends d (outSs b d s) :=
  decOuts_consume_appends b d (by simp)

theorem outLast_appends (b : Build) (d : Dec) : DecAppends d (outLast b d) :=
  decOuts_consume_appends b d (xs := [fromU8 d.p]) (by simp)

theorem raiseDecodeError_appends (d : Dec) (kind : ErrKind) (j : HostWord) (sel : BitVec 7) :
    DecAppends d (raiseDecodeError d kind j sel) := decAppends_of_out_eq rfl

theorem classifyPair_appends (b : Build) (d : Dec) (s : Scalar) (c : ClassCode) :
    DecAppends d (classifyPair b d s c) := by
  unfold classifyPair
  extract_lets sel
  split
  · exact outTriple_appends b d s
  split
  · exact outRun_appends b d s
  split
  · exact outSs_appends b d s
  · exact raiseDecodeError_appends d _ _ _

theorem pushScalar_appends (b : Build) (d : Dec) (s : Scalar) : DecAppends d (pushScalar b d s) := by
  unfold pushScalar
  extract_lets c
  split
  · exact decAppends_of_out_eq rfl
  split
  · exact classifyPair_appends b (countIdx b d) s c
  split
  · exact outApair_appends b (countIdx b d) s
  · exact decAppends_of_out_eq rfl

theorem classifyLone_appends (b : Build) (d : Dec) : DecAppends d (classifyLone b d) := by
  unfold classifyLone
  split
  · exact outLast_appends b d
  · exact raiseDecodeError_appends d _ _ _

theorem endScalars_appends (b : Build) (d : Dec) : DecAppends d (endScalars b d) := by
  unfold endScalars
  split
  · exact classifyLone_appends b d
  · exact decAppends_of_out_eq rfl

theorem decStartOp_appends (h : d.phase = .busy ∨ d.phase = .drain) (m : CMode) : DecAppends d (decStartOp d m) := by
  rw [decStartOp_running ((decRunning_iff d).mpr h)]
  exact decAppends_of_out_eq rfl

end

section
variable {i : Instr} {s : State}

/-! ### Actions -/

/-- Whatever next state the outcome has, each stream is appended to, or was emptied by an accepted START. -/
def StreamsAppend (i : Instr) (s : State) (r : Result) : Prop :=
  ∀ t, r = .next t →
    (startsEnc i = false ∨ s.enc.phase = .busy → EncAppends s.enc t.enc) ∧
    (startsDec i = false ∨ s.dec.phase = .busy ∨ s.dec.phase = .drain → DecAppends s.dec t.dec)

theorem streamsAppend_acceptEnc {e : Enc} (h : startsEnc i = false ∨ s.enc.phase = .busy → EncAppends s.enc e) :
    StreamsAppend i s (acceptEnc s e) := by
  rintro t ⟨⟩
  exact ⟨h, fun _ => decAppends_of_out_eq rfl⟩

theorem streamsAppend_acceptDec {d : Dec}
    (h : startsDec i = false ∨ s.dec.phase = .busy ∨ s.dec.phase = .drain → DecAppends s.dec d) :
    StreamsAppend i s (acceptDec s d) := by
  rintro t ⟨⟩
  exact ⟨fun _ => encAppends_of_out_eq rfl, h⟩

theorem streamsAppend_answer (i : Instr) (s : State) (r : Response) : StreamsAppend i s (answer s r) := by
  rintro t ⟨⟩
  exact ⟨fun _ => encAppends_of_out_eq rfl, fun _ => decAppends_of_out_eq rfl⟩

theorem streamsAppend_notAccept (i : Instr) (s : State) : StreamsAppend i s (notAccept s) :=
  streamsAppend_answer i s .notAccepted

theorem streamsAppend_execToken (i : Instr) (row : EncRow) (w : List Byte) (s : State) :
    StreamsAppend i s (execToken row w s) := by
  obtain ⟨-, -, -, heq⟩ | heq := execToken_cases row w s
  · rw [heq]
    exact streamsAppend_acceptEnc fun _ => keepRest_appends (tokenAction_appends s.build s.enc row w) _
  · rw [heq]
    exact streamsAppend_notAccept i s

theorem streamsAppend_execRow {d : Dec} (h : DecAppends s.dec d) (i : Instr) (c : Bool) :
    StreamsAppend i s (execRow c d s) := by
  obtain ⟨-, heq⟩ | ⟨-, heq⟩ := execRow_cases c d s
  · rw [heq]
    exact streamsAppend_acceptDec fun _ => h
  · rw [heq]
    exact streamsAppend_notAccept i s

theorem streamsAppend_execEncPush (i : Instr) (x : Byte) (s : State) : StreamsAppend i s (execEncPush x s) := by
  unfold execEncPush
  split
  · exact streamsAppend_acceptEnc fun _ => pushByte_appends s.build s.enc x
  · exact streamsAppend_notAccept i s

theorem streamsAppend_execEncEnd (i : Instr) (data : Byte) (s : State) : StreamsAppend i s (execEncEnd data s) := by
  unfold execEncEnd
  split
  · exact streamsAppend_acceptEnc fun _ => endInput_appends s.build s.enc
  · exact streamsAppend_notAccept i s

theorem streamsAppend_execDecPush (i : Instr) (x : Scalar) (s : State) : StreamsAppend i s (execDecPush x s) := by
  unfold execDecPush
  split
  · exact streamsAppend_acceptDec fun _ => pushScalar_appends s.build s.dec x
  split
  · exact streamsAppend_acceptDec fun _ => decAppends_of_out_eq rfl
  · exact streamsAppend_notAccept i s

theorem streamsAppend_execDecEnd (i : Instr) (data : Scalar) (s : State) : StreamsAppend i s (execDecEnd data s) := by
  unfold execDecEnd
  split
  · exact streamsAppend_acceptDec fun _ => endScalars_appends s.build s.dec
  · exact streamsAppend_notAccept i s

/-- An action that starts ENC appends nothing, where the unit ignores it. -/
theorem streamsAppend_encStartOp (hi : startsEnc i = true) : StreamsAppend i s (acceptEnc s (encStartOp s.enc)) :=
  streamsAppend_acceptEnc fun h => encStartOp_appends (h.resolve_left (by simp [hi]))

theorem streamsAppend_decStartOp (hi : startsDec i = true) (m : CMode) :
    StreamsAppend i s (acceptDec s (decStartOp s.dec m)) :=
  streamsAppend_acceptDec fun h => decStartOp_appends (h.resolve_left (by simp [hi])) m

theorem streamsAppend_execWrreg (n : BitVec 4) (v : HostWord) (s : State) :
    StreamsAppend (.wrreg n v) s (execWrreg n v s) := by
  unfold execWrreg
  split
  case isTrue henc => exact streamsAppend_encStartOp (by simp [startsEnc, henc])
  split
  case isTrue hdec => exact streamsAppend_decStartOp (by simp [startsDec, hdec]) _
  · exact streamsAppend_answer _ s _

theorem streamsAppend_exec (s : State) (hreset : i ≠ .reset) : StreamsAppend i s (exec i s) := by
  cases i with
  | primClass | primB2u8 | primU82b | primN2u12 | primU122n | primTpack | primTunpack | primApack | primAunpack
  | primRpack | primRunpack | primReservedB | primReservedCF | rdreg => exact streamsAppend_answer _ s _
  | eRun | eApair | eTriple | eSingle => exact streamsAppend_execToken _ _ _ s
  | dApair hasNext cls1 k x => exact streamsAppend_execRow (outApair_appends s.build s.dec x) _ _
  | dTriple x => exact streamsAppend_execRow (outTriple_appends s.build s.dec x) _ _
  | dRun x => exact streamsAppend_execRow (outRun_appends s.build s.dec x) _ _
  | dSs x => exact streamsAppend_execRow (outSs_appends s.build s.dec x) _ _
  | dLast => exact streamsAppend_execRow (outLast_appends s.build s.dec) _ _
  | dSkipLb => exact streamsAppend_execRow (decAppends_of_out_eq rfl) _ _
  | dErrPair | dErrLone => exact streamsAppend_execRow (raiseDecodeError_appends s.dec _ _ _) _ _
  | encPush x => exact streamsAppend_execEncPush _ x s
  | encEnd data => exact streamsAppend_execEncEnd _ data s
  | decPush x => exact streamsAppend_execDecPush _ x s
  | decEnd data => exact streamsAppend_execDecEnd _ data s
  | encStart => exact streamsAppend_encStartOp rfl
  | decStart => exact streamsAppend_decStartOp rfl _
  | wrreg n v => exact streamsAppend_execWrreg n v s
  | reset => exact absurd rfl hreset

end

/-- Settles O54: each action appends what its tokens or rows emit, and only a START that is not ignored empties. -/
theorem streamsOnlyGrow : Obligations.StreamsOnlyGrow := fun _ s t hexec hreset =>
  streamsAppend_exec s hreset t hexec

end Sys2Proof.Machine
end

section
/-! SUPPORT. DEC's two beats as equations, one for each branch of R213 and R214. A pending scalar and its successor are
described once, by the bytes their selector gives; both the unit and the batch decoder are tied to that. -/

namespace Sys2Proof.Machine

variable {b : Build} {d : Dec} {s : State}

/-! ### Output writes the stream alone -/

@[simp] theorem decOuts_phase (b : Build) (d : Dec) (xs : List Byte) : (decOuts b d xs).phase = d.phase := by
  rw [decOuts_frame]

@[simp] theorem decOuts_pv (b : Build) (d : Dec) (xs : List Byte) : (decOuts b d xs).pv = d.pv := by
  rw [decOuts_frame]

@[simp] theorem decOuts_idx (b : Build) (d : Dec) (xs : List Byte) : (decOuts b d xs).idx = d.idx := by
  rw [decOuts_frame]

/-! ### The bytes of a pair -/

/-- The bytes that the scalars `u1` and `u2` stand for under the selector `sel`, if it selects a row that decodes the
two (R205, R206, R208). -/
def pairBytes (sel : BitVec 7) (u1 u2 : Scalar) : Option (List Byte) :=
  if sel = 0b1010010#7 then
    some [(tunpack (fromU12 u1) (fromU12 u2)).1, (tunpack (fromU12 u1) (fromU12 u2)).2.1,
      (tunpack (fromU12 u1) (fromU12 u2)).2.2]
  else if sel = 0b1010001#7 then some (List.replicate (fromU12 u2).toNat (fromU8 u1))
  else if sel = 0b1001001#7 then some [fromU8 u1, fromU8 u2]
  else none

theorem classifyPair_of_some {x : Scalar} {c : ClassCode} {ys : List Byte}
    (h : pairBytes (selWord 1#1 c d.pc) d.p x = some ys) (b : Build) :
    classifyPair b d x c = { decOuts b d ys with pv := false } := by
  unfold pairBytes at h
  unfold classifyPair
  extract_lets sel
  split_ifs at h ⊢ <;> cases h <;> rfl

theorem classifyPair_of_none {x : Scalar} {c : ClassCode} (h : pairBytes (selWord 1#1 c d.pc) d.p x = none)
    (b : Build) : classifyPair b d x c = raiseDecodeError d .pair d.pidx (selWord 1#1 c d.pc) := by
  unfold pairBytes at h
  unfold classifyPair
  extract_lets sel
  split_ifs at h ⊢
  rfl

/-- A selector with HAS_NEXT = 1 tells both classes. -/
theorem selWord_pair_eq_iff (c1 c0 k1 k0 : ClassCode) :
    selWord 1#1 c1 c0 = selWord 1#1 k1 k0 ↔ c0 = k0 ∧ c1 = k1 := by
  have hc := c0.isLt
  have hk := k0.isLt
  simp only [selWord, BitVec.toNat_eq, toNat_append_eq_mul_add]
  omega

theorem selWord_eq_triple_iff (c1 c0 : ClassCode) : selWord 1#1 c1 c0 = 0b1010010#7 ↔ c0 = 2#3 ∧ c1 = 2#3 :=
  selWord_pair_eq_iff c1 c0 2#3 2#3

theorem selWord_eq_run_iff (c1 c0 : ClassCode) : selWord 1#1 c1 c0 = 0b1010001#7 ↔ c0 = 1#3 ∧ c1 = 2#3 :=
  selWord_pair_eq_iff c1 c0 2#3 1#3

theorem selWord_eq_ss_iff (c1 c0 : ClassCode) : selWord 1#1 c1 c0 = 0b1001001#7 ↔ c0 = 1#3 ∧ c1 = 1#3 :=
  selWord_pair_eq_iff c1 c0 1#3 1#3

section

variable {lb : List Scalar} {u1 u2 : Scalar}

/-- The batch decoder asks of a pair what its selector tells (R84, R200). -/
theorem decodeUnits_pair_of_some (h1 : inU12a lb u1 = false) {ys : List Byte}
    (h : pairBytes (selWord 1#1 (cls lb u2) (cls lb u1)) u1 u2 = some ys) (i : Nat) (rest : List Scalar) :
    decodeUnits lb i (u1 :: u2 :: rest) =
      (ys ++ (decodeUnits lb (i + 2) rest).1, (decodeUnits lb (i + 2) rest).2) := by
  simp only [pairBytes, selWord_eq_triple_iff, selWord_eq_run_iff, selWord_eq_ss_iff] at h
  simp only [decodeUnits, h1, Bool.false_eq_true, if_false, inU12, inU8, Bool.and_eq_true, beq_iff_eq]
  split_ifs at h ⊢ <;> cases h <;> rfl

theorem decodeUnits_pair_of_none (h1 : inU12a lb u1 = false)
    (h : pairBytes (selWord 1#1 (cls lb u2) (cls lb u1)) u1 u2 = none) (i : Nat) (rest : List Scalar) :
    decodeUnits lb i (u1 :: u2 :: rest) = ([], some ⟨.pair, i, selWord 1#1 (cls lb u2) (cls lb u1)⟩) := by
  simp only [pairBytes, selWord_eq_triple_iff, selWord_eq_run_iff, selWord_eq_ss_iff] at h
  simp only [decodeUnits, h1, Bool.false_eq_true, if_false, inU12, inU8, Bool.and_eq_true, beq_iff_eq]
  split_ifs at h ⊢
  rfl

/-- A last scalar of class U8 is its byte (R209). -/
theorem decodeUnits_last (h : cls lb u1 = 1#3) (i : Nat) : decodeUnits lb i [u1] = ([fromU8 u1], none) := by
  simp [decodeUnits, inU12a, inU8, h]

/-- A last scalar of any class but U8 and U12a fails alone (R211). -/
theorem decodeUnits_lone (h1 : inU12a lb u1 = false) (h : cls lb u1 ≠ 1#3) (i : Nat) :
    decodeUnits lb i [u1] = ([], some ⟨.lone, i, selWord 0#1 0#3 (cls lb u1)⟩) := by
  simp [decodeUnits, h1, inU8, h]

end

/-! ### A push -/

theorem pushScalar_lineBreak {x : Scalar} (h : cls b.lbSet x = 3#3) (d : Dec) : pushScalar b d x = d := if_pos h

theorem pushScalar_pending {x : Scalar} (h : cls b.lbSet x ≠ 3#3) (hpv : d.pv = true) :
    pushScalar b d x = classifyPair b (countIdx b d) x (cls b.lbSet x) := (if_neg h).trans (if_pos hpv)

theorem pushScalar_unpack {x : Scalar} (h : cls b.lbSet x ≠ 3#3) (hpv : d.pv = false) (hx : inU12a b.lbSet x = true) :
    pushScalar b d x = decOuts b (countIdx b d) (aunpackBytes x) :=
  (if_neg h).trans ((if_neg (by simp [hpv])).trans (if_pos hx))

theorem pushScalar_hold {x : Scalar} (h : cls b.lbSet x ≠ 3#3) (hpv : d.pv = false) (hx : inU12a b.lbSet x = false) :
    pushScalar b d x = holdScalar (countIdx b d) x (cls b.lbSet x) d.idx :=
  (if_neg h).trans ((if_neg (by simp [hpv])).trans (if_neg (ne_true_of_eq_false hx)))

/-- DEC.PUSH while a transaction runs: a scalar is discarded in DRAIN (R213, R215). -/
def acceptScalar (b : Build) (d : Dec) (x : Scalar) : Dec := if d.phase = .drain then d else pushScalar b d x

theorem acceptScalar_busy (h : d.phase = .busy) (b : Build) (x : Scalar) : acceptScalar b d x = pushScalar b d x :=
  if_neg (by simp [h])

theorem acceptScalar_drain (h : d.phase = .drain) (b : Build) (x : Scalar) : acceptScalar b d x = d := if_pos h

theorem exec_decPush_busy (h : s.dec.phase = .busy) (x : Scalar) :
    exec (.decPush x) s = acceptDec s (pushScalar s.build s.dec x) := if_pos h

theorem exec_decPush_drain (h : s.dec.phase = .drain) (x : Scalar) : exec (.decPush x) s = acceptDec s s.dec :=
  (if_neg (by simp [h])).trans (if_pos h)

theorem exec_decPush_running (h : decRunning s.dec = true) (x : Scalar) :
    exec (.decPush x) s = acceptDec s (acceptScalar s.build s.dec x) := by
  rcases (decRunning_iff _).mp h with hbusy | hdrain
  · rw [exec_decPush_busy hbusy, acceptScalar_busy hbusy]
  · rw [exec_decPush_drain hdrain, acceptScalar_drain hdrain]

/-- Settles O34: a push in DRAIN leaves DEC as it was. -/
theorem decPushIsDiscardedInDrain : Obligations.DecPushIsDiscardedInDrain :=
  fun x _ hdrain => exec_decPush_drain hdrain x

/-! ### The end -/

theorem endScalars_none (h : d.phase = .busy → d.pv = false) (b : Build) :
    endScalars b d = returnFromTransaction d := by
  rw [endScalars, if_neg]
  rintro ⟨hbusy, hpv⟩
  simp [h hbusy] at hpv

theorem endScalars_last (hbusy : d.phase = .busy) (hpv : d.pv = true) (hpc : d.pc = 1#3) (b : Build) :
    endScalars b d = returnFromTransaction (outLast b d) := by
  rw [endScalars, if_pos ⟨hbusy, hpv⟩, classifyLone, if_pos hpc]

theorem endScalars_lone (hbusy : d.phase = .busy) (hpv : d.pv = true) (hpc : d.pc ≠ 1#3) (b : Build) :
    endScalars b d = returnFromTransaction (raiseDecodeError d .lone d.pidx (selWord 0#1 0#3 d.pc)) := by
  rw [endScalars, if_pos ⟨hbusy, hpv⟩, classifyLone, if_neg hpc]

theorem exec_decEnd_running (h : decRunning s.dec = true) (data : Scalar) :
    exec (.decEnd data) s = acceptDec s (endScalars s.build s.dec) := if_pos h

theorem selWord_lone_eq_ofNat (c : ClassCode) : selWord 0#1 0#3 c = BitVec.ofNat 7 c.toNat := by
  have hc := c.isLt
  rw [selWord, BitVec.toNat_eq, toNat_append_eq_mul_add, toNat_append_eq_mul_add, BitVec.toNat_ofNat]
  simp
  omega

/-- Settles O35: one clause for each way END finds the unit. -/
theorem decEndFinishes : Obligations.DecEndFinishes := by
  intro data s
  refine ⟨rfl, ?nothing, ?last, ?lone⟩
  case nothing =>
    rintro (hdrain | ⟨hbusy, hpv⟩)
    · rw [exec_decEnd_running ((decRunning_iff _).mpr (.inr hdrain)), endScalars_none (by simp [hdrain])]
      rfl
    · rw [exec_decEnd_running ((decRunning_iff _).mpr (.inl hbusy)), endScalars_none fun _ => hpv]
      rfl
  case last =>
    intro hbusy hpv hpc
    rw [exec_decEnd_running ((decRunning_iff _).mpr (.inl hbusy)), endScalars_last hbusy hpv hpc]
    rfl
  case lone =>
    intro hbusy hpv hpc
    rw [exec_decEnd_running ((decRunning_iff _).mpr (.inl hbusy)), endScalars_lone hbusy hpv hpc, selWord_lone_eq_ofNat]
    rfl

end Sys2Proof.Machine
end

section
/-! SUPPORT. DEC against the batch decoder: while a transaction runs, what the unit has given so far, together with what
the batch decoder makes of the pending scalar and the scalars to come, is one fixed result. START sets that result up, a
push keeps it, and END leaves the unit with it (R216, R217). -/

namespace Sys2Proof.Machine

variable {b : Build} {m : CMode} {d : Dec} {s : State}

/-! ### Line breaks -/

theorem stripLineBreaks_cons_lineBreak {lb : List Scalar} {x : Scalar} (h : cls lb x = 3#3) (rest : List Scalar) :
    stripLineBreaks lb (x :: rest) = stripLineBreaks lb rest :=
  List.filter_cons_of_neg (by simp [inLB, h])

theorem stripLineBreaks_cons_other {lb : List Scalar} {x : Scalar} (h : cls lb x ≠ 3#3) (rest : List Scalar) :
    stripLineBreaks lb (x :: rest) = x :: stripLineBreaks lb rest :=
  List.filter_cons_of_pos (by simp [inLB, h])

/-! ### What DEC has given -/

/-- In mode `m`, DEC has given the bytes `xs`: they are emitted in EMIT mode only, and counted in both (R202). -/
structure DecGiven (b : Build) (m : CMode) (d : Dec) (xs : List Byte) : Prop where
  cmode : d.cmode = m
  out : d.out = if m = .emit then xs else []
  outCount : d.outCount.toNat = xs.length % 2 ^ b.cntW

theorem DecGiven.frame {xs : List Byte} {f : Dec} (h : DecGiven b m d xs) (hmode : f.cmode = d.cmode := by rfl)
    (hout : f.out = d.out := by rfl) (hcount : f.outCount = d.outCount := by rfl) : DecGiven b m f xs :=
  ⟨hmode.trans h.cmode, hout.trans h.out, hcount ▸ h.outCount⟩

theorem DecGiven.decOut {xs : List Byte} (hb : b.cntW ≤ 32) (h : DecGiven b m d xs) (y : Byte) :
    DecGiven b m (decOut b d y) (xs ++ [y]) := by
  refine ⟨h.cmode, ?_, ?_⟩
  · rw [decOut_out, h.cmode, h.out]
    split <;> rfl
  · rw [decOut_outCount, countUp_toNat hb, h.outCount, Nat.mod_add_mod, List.length_append, List.length_singleton]

theorem DecGiven.decOuts {xs : List Byte} (hb : b.cntW ≤ 32) (h : DecGiven b m d xs) (ys : List Byte) :
    DecGiven b m (decOuts b d ys) (xs ++ ys) := by
  induction ys generalizing d xs with
  | nil => rwa [List.append_nil]
  | cons y ys ih =>
    have hrest := ih (h.decOut hb y)
    rwa [List.append_assoc] at hrest

/-- DEC holds the record of the batch decoder's failure `f` (R212). -/
structure DecRecords (b : Build) (d : Dec) (f : DecodeFail) : Prop where
  err : d.err = true
  kind : d.errKind = f.kind
  index : d.errIdx.toNat = f.index % 2 ^ b.cntW
  sel : d.errSel = f.sel

/-! ### What is still to come -/

/-- The scalar DEC has taken and not yet decoded (R34). -/
def decHeld (d : Dec) : List Scalar := if d.pv then [d.p] else []

theorem decHeld_none (h : d.pv = false) : decHeld d = [] := if_neg (by simp [h])

theorem decHeld_pending (h : d.pv = true) : decHeld d = [d.p] := if_pos h

/-- The index of the first scalar not yet decoded: the pending one's, or the next one's (R36). -/
def decIndex (d : Dec) : HostWord := if d.pv then d.pidx else d.idx

theorem decIndex_none (h : d.pv = false) : decIndex d = d.idx := if_neg (by simp [h])

theorem decIndex_pending (h : d.pv = true) : decIndex d = d.pidx := if_pos h

/-- The batch decoder's result on what DEC holds and the scalars `rest` to come, from index `i` on. -/
def decRemaining (b : Build) (d : Dec) (i : Nat) (rest : List Scalar) : List Byte × Option DecodeFail :=
  decodeUnits b.lbSet i (decHeld d ++ stripLineBreaks b.lbSet rest)

theorem decRemaining_none (h : d.pv = false) (i : Nat) (rest : List Scalar) :
    decRemaining b d i rest = decodeUnits b.lbSet i (stripLineBreaks b.lbSet rest) := by
  rw [decRemaining, decHeld_none h, List.nil_append]

theorem decRemaining_pending (h : d.pv = true) (i : Nat) (rest : List Scalar) :
    decRemaining b d i rest = decodeUnits b.lbSet i (d.p :: stripLineBreaks b.lbSet rest) := by
  rw [decRemaining, decHeld_pending h, List.singleton_append]

theorem inU12a_pending (inv : DecInv b d) (hpv : d.pv = true) : inU12a b.lbSet d.p = false := by
  obtain ⟨hp, -, -⟩ := decInv_iff.mp inv
  obtain ⟨hpc, hclass, -, -⟩ := hp.pending hpv
  rw [inU12a, ← hpc]
  rcases hclass with h | h | h <;> rw [h] <;> rfl

/-! ### The result is kept -/

section

variable {x : Scalar} {rest : List Scalar} {xs : List Byte} {i : Nat} {r : List Byte × Option DecodeFail}

/-- DEC is BUSY on its way to the result `r`: in mode `m` it has given `xs`, and from index `i` on the batch decoder
gives the rest. -/
structure DecDecodes (b : Build) (m : CMode) (d : Dec) (xs : List Byte) (i : Nat) (rest : List Scalar)
    (r : List Byte × Option DecodeFail) : Prop where
  phase : d.phase = .busy
  inv : DecInv b d
  given : DecGiven b m d xs
  index : (decIndex d).toNat = i % 2 ^ b.cntW
  result : r = (xs ++ (decRemaining b d i rest).1, (decRemaining b d i rest).2)

/-- DEC has given all the bytes of the result `r`, and recorded its failure `f`. -/
structure DecFailed (b : Build) (m : CMode) (d : Dec) (f : DecodeFail) (r : List Byte × Option DecodeFail) : Prop where
  given : DecGiven b m d r.1
  failure : r.2 = some f
  records : DecRecords b d f

/-- With the scalars `rest` to come, the running DEC is on its way to the result `r`, or drains with it. -/
inductive DecTracks (b : Build) (m : CMode) (d : Dec) (rest : List Scalar) (r : List Byte × Option DecodeFail) : Prop
  | busy (xs : List Byte) (i : Nat) (h : DecDecodes b m d xs i rest r)
  | drain (f : DecodeFail) (hphase : d.phase = .drain) (h : DecFailed b m d f r)

theorem DecTracks.running (h : DecTracks b m d rest r) : decRunning d = true := by
  rw [decRunning_iff]
  cases h with
  | busy xs i h => exact .inl h.phase
  | drain f hphase => exact .inr hphase

theorem startDec_tracks (b : Build) (d : Dec) (m : CMode) (l : List Scalar) :
    DecTracks b m (startDec d m) l (decodeUnits b.lbSet 0 (stripLineBreaks b.lbSet l)) :=
  .busy [] 0
    { phase := rfl
      inv := startDec_decInv b d m
      given := ⟨rfl, by simp, by simp⟩
      index := by simp [decIndex_none (startDec_pv d m)]
      result := by rw [decRemaining_none rfl, List.nil_append] }

theorem countIdx_idx_toNat (hb : b.cntW ≤ 32) (h : d.idx.toNat = i % 2 ^ b.cntW) :
    (countIdx b d).idx.toNat = (i + 1) % 2 ^ b.cntW := by
  rw [countIdx_idx, countUp_toNat hb, h, Nat.mod_add_mod]

theorem pushScalar_tracks_lineBreak (hx : cls b.lbSet x = 3#3) (h : DecDecodes b m d xs i (x :: rest) r) :
    DecTracks b m (pushScalar b d x) rest r := by
  have hresult := h.result
  rw [decRemaining, stripLineBreaks_cons_lineBreak hx] at hresult
  rw [pushScalar_lineBreak hx]
  exact .busy xs i { h with result := hresult }

/-- With nothing pending, a U12a scalar is decoded at once and any other becomes the pending one. -/
theorem pushScalar_tracks_none (hb : b.cntW ≤ 32) (hx : cls b.lbSet x ≠ 3#3) (hpv : d.pv = false)
    (h : DecDecodes b m d xs i (x :: rest) r) : DecTracks b m (pushScalar b d x) rest r := by
  obtain ⟨hphase, hinv, hgiven, hindex, hresult⟩ := h
  have hinv' := pushScalar_keeps_decInv hb hphase hinv x
  rw [decIndex_none hpv] at hindex
  rw [decRemaining_none hpv, stripLineBreaks_cons_other hx] at hresult
  cases hu : inU12a b.lbSet x with
  | true =>
    rw [pushScalar_unpack hx hpv hu] at hinv' ⊢
    have hpv' : (decOuts b (countIdx b d) (aunpackBytes x)).pv = false := by simp [hpv]
    refine .busy (xs ++ aunpackBytes x) (i + 1) ⟨by simp [hphase], hinv', hgiven.frame.decOuts hb _, ?_, ?_⟩
    · rw [decIndex_none hpv', decOuts_idx, countIdx_idx_toNat hb hindex]
    · rw [hresult, decRemaining_none hpv', decodeUnits_apair hu, List.append_assoc]
  | false =>
    rw [pushScalar_hold hx hpv hu] at hinv' ⊢
    refine .busy xs i ⟨by simp [hphase], hinv', hgiven.frame, ?_, ?_⟩
    · rw [decIndex_pending rfl, holdScalar_pidx, hindex]
    · rw [hresult, decRemaining_pending rfl, holdScalar_p]

/-- With a scalar pending, the selector of the two decides: it gives the pair's bytes, or the batch decoder fails there
and so does DEC. -/
theorem pushScalar_tracks_pending (hb : b.cntW ≤ 32) (hx : cls b.lbSet x ≠ 3#3) (hpv : d.pv = true)
    (h : DecDecodes b m d xs i (x :: rest) r) : DecTracks b m (pushScalar b d x) rest r := by
  obtain ⟨hphase, hinv, hgiven, hindex, hresult⟩ := h
  have hinv' := pushScalar_keeps_decInv hb hphase hinv x
  obtain ⟨hp, -, -⟩ := decInv_iff.mp hinv
  obtain ⟨hpc, -, -, hidx⟩ := hp.pending hpv
  have hu := inU12a_pending hinv hpv
  rw [decIndex_pending hpv] at hindex
  rw [decRemaining_pending hpv, stripLineBreaks_cons_other hx] at hresult
  rw [pushScalar_pending hx hpv] at hinv' ⊢
  cases hpair : pairBytes (selWord 1#1 (cls b.lbSet x) d.pc) d.p x with
  | some ys =>
    rw [classifyPair_of_some (d := countIdx b d) hpair] at hinv' ⊢
    have hcounted : DecGiven b m (countIdx b d) xs := hgiven.frame
    refine .busy (xs ++ ys) (i + 2) ⟨by simp [hphase], hinv', (hcounted.decOuts hb ys).frame, ?_, ?_⟩
    · have hidx' : d.idx.toNat = (i + 1) % 2 ^ b.cntW := by
        rw [hidx, countUp_toNat hb, hindex, Nat.mod_add_mod]
      rw [decIndex_none rfl, decOuts_idx, countIdx_idx_toNat hb hidx']
    · rw [hresult, decRemaining_none rfl, decodeUnits_pair_of_some hu (hpc ▸ hpair), List.append_assoc]
  | none =>
    rw [decodeUnits_pair_of_none hu (hpc ▸ hpair), List.append_nil] at hresult
    rw [classifyPair_of_none (d := countIdx b d) hpair, countIdx_pc, hpc]
    subst hresult
    exact .drain _ rfl ⟨hgiven.frame, rfl, rfl, rfl, hindex, rfl⟩

theorem acceptScalar_tracks (hb : b.cntW ≤ 32) (h : DecTracks b m d (x :: rest) r) :
    DecTracks b m (acceptScalar b d x) rest r := by
  cases h with
  | drain f hphase h =>
    rw [acceptScalar_drain hphase]
    exact .drain f hphase h
  | busy xs i h =>
    rw [acceptScalar_busy h.phase]
    by_cases hx : cls b.lbSet x = 3#3
    · exact pushScalar_tracks_lineBreak hx h
    · cases hpv : d.pv with
      | false => exact pushScalar_tracks_none hb hx hpv h
      | true => exact pushScalar_tracks_pending hb hx hpv h

/-! ### The end -/

/-- The unit has ended in DONE with the batch decoder's result `r` (R216, R217). -/
structure DecFinished (b : Build) (m : CMode) (d : Dec) (r : List Byte × Option DecodeFail) : Prop where
  phase : d.phase = .done
  given : DecGiven b m d r.1
  no_err : r.2 = none → d.err = false
  records : ∀ f, r.2 = some f → DecRecords b d f

theorem err_of_busy (hphase : d.phase = .busy) (inv : DecInv b d) : d.err = false := by
  obtain ⟨-, he, -⟩ := decInv_iff.mp inv
  by_contra herr
  have hend := he.phase_of_err (by simpa using herr)
  simp [hphase] at hend

/-- A clean result is finished by DONE alone. -/
theorem returnFromTransaction_finished_ok (herr : d.err = false) (h : DecGiven b m d xs) :
    DecFinished b m (returnFromTransaction d) (xs, none) :=
  ⟨rfl, h.frame, fun _ => herr, by simp⟩

theorem returnFromTransaction_finished_failed {f : DecodeFail} (h : DecFailed b m d f r) :
    DecFinished b m (returnFromTransaction d) r := by
  obtain ⟨hgiven, hfail, herr, hkind, hindex, hsel⟩ := h
  refine ⟨rfl, hgiven.frame, by simp [hfail], fun g hg => ?_⟩
  obtain rfl : f = g := Option.some.inj (hfail.symm.trans hg)
  exact ⟨herr, hkind, hindex, hsel⟩

/-- END with a scalar pending: its byte, or the error the batch decoder fails with. -/
theorem endScalars_finished_pending (hb : b.cntW ≤ 32) (hpv : d.pv = true) (h : DecDecodes b m d xs i [] r) :
    DecFinished b m (endScalars b d) r := by
  obtain ⟨hphase, hinv, hgiven, hindex, hresult⟩ := h
  obtain ⟨hp, -, -⟩ := decInv_iff.mp hinv
  obtain ⟨hpc, -, -, -⟩ := hp.pending hpv
  rw [decRemaining_pending hpv] at hresult
  rw [decIndex_pending hpv] at hindex
  subst hresult
  by_cases hu8 : d.pc = 1#3
  · rw [endScalars_last hphase hpv hu8]
    have hlast : decodeUnits b.lbSet i (d.p :: stripLineBreaks b.lbSet []) = ([fromU8 d.p], none) :=
      decodeUnits_last (hpc ▸ hu8) i
    rw [hlast]
    have herr := err_of_busy hphase hinv
    exact returnFromTransaction_finished_ok herr (hgiven.decOut hb _).frame
  · rw [endScalars_lone hphase hpv hu8]
    have hlone : decodeUnits b.lbSet i (d.p :: stripLineBreaks b.lbSet []) =
        ([], some ⟨.lone, i, selWord 0#1 0#3 d.pc⟩) := by
      rw [hpc] at hu8 ⊢
      exact decodeUnits_lone (inU12a_pending hinv hpv) hu8 i
    rw [hlone, List.append_nil]
    exact returnFromTransaction_finished_failed ⟨hgiven.frame, rfl, rfl, rfl, hindex, rfl⟩

theorem endScalars_finished (hb : b.cntW ≤ 32) (h : DecTracks b m d [] r) : DecFinished b m (endScalars b d) r := by
  cases h with
  | drain f hphase h =>
    rw [endScalars_none (by simp [hphase])]
    exact returnFromTransaction_finished_failed h
  | busy xs i h =>
    cases hpv : d.pv with
    | true => exact endScalars_finished_pending hb hpv h
    | false =>
      have hresult := h.result
      rw [decRemaining_none hpv] at hresult
      obtain rfl : r = (xs, none) := hresult.trans (by simp [stripLineBreaks, decodeUnits])
      rw [endScalars_none fun _ => hpv]
      exact returnFromTransaction_finished_ok (err_of_busy h.phase h.inv) h.given

end

/-! ### A transaction of the unit -/

/-- The unit after the pushes of a scalar sequence. -/
def pushScalars (b : Build) (d : Dec) (l : List Scalar) : Dec := l.foldl (acceptScalar b) d

theorem pushScalars_tracks {l : List Scalar} {r : List Byte × Option DecodeFail} (hb : b.cntW ≤ 32)
    (h : DecTracks b m d l r) : DecTracks b m (pushScalars b d l) [] r := by
  induction l generalizing d with
  | nil => exact h
  | cons x l ih => exact ih (acceptScalar_tracks hb h)

/-- DEC after START in mode `m`, the pushes and END. -/
def decTransaction (b : Build) (d : Dec) (m : CMode) (l : List Scalar) : Dec :=
  endScalars b (pushScalars b (startDec d m) l)

theorem decTransaction_finished (hb : b.cntW ≤ 32) (d : Dec) (m : CMode) (l : List Scalar) :
    DecFinished b m (decTransaction b d m l) (decodeUnits b.lbSet 0 (stripLineBreaks b.lbSet l)) :=
  endScalars_finished hb (pushScalars_tracks hb (startDec_tracks b d m l))

/-! ### A transaction of the machine -/

theorem decode_encode_decPush (x : Scalar) : decode (encode (.decPush x)) = .ok (.decPush x) := by
  have hend : (0#1 ++ x).getLsbD 21 = false := by
    rw [BitVec.getLsbD_append]
    rfl
  have hdata : (0#1 ++ x).extractLsb' 0 21 = x := BitVec.extractLsb'_append_eq_right
  simp only [encode, decode, decodeDecIn, hend, hdata]
  rfl

theorem decode_encode_decStart (m : CMode) : decode (encode (.decStart m.code 0#30)) = .ok (.decStart m.code 0#30) := by
  cases m <;> decide

theorem cmodeOf_code (m : CMode) : cmodeOf m.code = m := by
  cases m <;> rfl

/-- Running the pushes of a scalar sequence pushes it, and touches nothing but DEC, the answer and the queue. -/
theorem run_decPushSeq (hbuild : buildValid s.build = true) {l : List Scalar} {r : List Byte × Option DecodeFail}
    (htracks : DecTracks s.build m s.dec l r) {rest : List Beat} (hin : s.inputs = decPushSeq l ++ rest) (n : Nat) :
    ∃ a, Sys2Proof.core.run (l.length + n) s =
      Sys2Proof.core.run n { s with dec := pushScalars s.build s.dec l, inputs := rest, resp := a } := by
  obtain ⟨-, hb, -⟩ := (buildValid_iff _).mp hbuild
  induction l generalizing s with
  | nil =>
    obtain rfl : s.inputs = rest := hin
    refine ⟨s.resp, ?_⟩
    rw [List.length_nil, Nat.zero_add]
    rfl
  | cons x l ih =>
    have hexec := exec_decPush_running (s := { s with inputs := decPushSeq l ++ rest }) htracks.running x
    have hstep := step_eq_of_accepted hbuild hin (decode_encode_decPush x) hexec rfl
    obtain ⟨a, hrun⟩ := ih
      (s := { s with dec := acceptScalar s.build s.dec x, inputs := decPushSeq l ++ rest, resp := .accepted })
      hbuild (acceptScalar_tracks hb htracks) rfl hb
    refine ⟨a, ?_⟩
    rw [List.length_cons, Nat.add_right_comm, run_succ_of_step hstep]
    exact hrun

theorem run_decTxn (hbuild : buildValid s.build = true) (hidle : decRunning s.dec = false) {l : List Scalar}
    {rest : List Beat} (hin : s.inputs = decTxn m l ++ rest) :
    Sys2Proof.core.run (l.length + 2) s =
      .next { s with dec := decTransaction s.build s.dec m l, inputs := rest, resp := .accepted } := by
  obtain ⟨-, hb, -⟩ := (buildValid_iff _).mp hbuild
  have hqueue : s.inputs = encode (.decStart m.code 0#30) :: (decPushSeq l ++ (encode (.decEnd 0#21) :: rest)) := by
    rw [hin, decTxn, List.cons_append, List.append_assoc]
    rfl
  have hstart : exec (.decStart m.code 0#30) { s with inputs := decPushSeq l ++ (encode (.decEnd 0#21) :: rest) } =
      acceptDec { s with inputs := decPushSeq l ++ (encode (.decEnd 0#21) :: rest) } (startDec s.dec m) :=
    congrArg (acceptDec _) ((decStartOp_start hidle _).trans (congrArg (startDec s.dec) (cmodeOf_code m)))
  have hfirst := step_eq_of_accepted hbuild hqueue (decode_encode_decStart m) hstart rfl
  have htracks := startDec_tracks s.build s.dec m l
  obtain ⟨a, hpushes⟩ := run_decPushSeq (rest := encode (.decEnd 0#21) :: rest)
    (s := { s with dec := startDec s.dec m, inputs := _, resp := .accepted }) hbuild htracks rfl 1
  have hend := exec_decEnd_running
    (s := { s with dec := pushScalars s.build (startDec s.dec m) l, inputs := rest, resp := a })
    (pushScalars_tracks hb htracks).running 0#21
  have hlast := step_eq_of_accepted
    (s := { s with
      dec := pushScalars s.build (startDec s.dec m) l, inputs := encode (.decEnd 0#21) :: rest, resp := a })
    hbuild rfl (by decide) hend rfl
  exact (run_succ_of_step hfirst _).trans (hpushes.trans (run_succ_of_step hlast 0))

/-! ### The batch function -/

theorem decodeScalars_of_none {lb : List Scalar} {l : List Scalar}
    (h : (decodeUnits lb 0 (stripLineBreaks lb l)).2 = none) :
    decodeScalars lb l = .ok (decodeUnits lb 0 (stripLineBreaks lb l)).1 := by
  have hr : decodeUnits lb 0 (stripLineBreaks lb l) = (_, none) := Prod.ext rfl h
  rw [decodeScalars, hr]

theorem decodeScalars_of_some {lb : List Scalar} {l : List Scalar} {f : DecodeFail}
    (h : (decodeUnits lb 0 (stripLineBreaks lb l)).2 = some f) : decodeScalars lb l = .error f := by
  have hr : decodeUnits lb 0 (stripLineBreaks lb l) = (_, some f) := Prod.ext rfl h
  rw [decodeScalars, hr]

theorem decRunning_of_idle_or_done (h : d.phase = .idle ∨ d.phase = .done) : decRunning d = false := by
  rcases h with h | h <;> simp [decRunning, h]

/-- Settles O41: the machine runs the transaction of the unit, which ends with the batch decoder's result. -/
theorem decTransactionComputesDecode : Obligations.DecTransactionComputesDecode := by
  intro s m scalars rest hbuild hidle hin
  obtain ⟨-, hb, -⟩ := (buildValid_iff _).mp hbuild
  obtain ⟨hphase, ⟨hmode, hout, hcount⟩, hok, hfail⟩ := decTransaction_finished hb s.dec m scalars
  refine ⟨_, run_decTxn hbuild (decRunning_of_idle_or_done hidle) hin, hphase, hmode, rfl, rfl, rfl, rfl, hout, ?_⟩
  cases hr : (decodeUnits s.build.lbSet 0 (stripLineBreaks s.build.lbSet scalars)).2 with
  | none =>
    rw [decodeScalars_of_none hr]
    exact ⟨hok hr, hcount, fun hm => hout.trans (if_pos hm)⟩
  | some f =>
    rw [decodeScalars_of_some hr]
    obtain ⟨herr, hkind, hindex, hsel⟩ := hfail f hr
    exact ⟨herr, hkind, hindex, hsel⟩

/-- Settles O42: both passes decode the same stripped sequence, and only the mode of the first keeps its bytes back. -/
theorem countPassPredictsEmitPass : Obligations.CountPassPredictsEmitPass := by
  intro s t xs ys hbuild hidle hin hstrip hrun herr
  obtain ⟨-, hb, -⟩ := (buildValid_iff _).mp hbuild
  rw [run_decTxn hbuild (decRunning_of_idle_or_done hidle) hin] at hrun
  obtain rfl := Host.Outcome.next.inj hrun
  obtain ⟨hphase, ⟨-, -, hcount⟩, -, hfail⟩ := decTransaction_finished hb s.dec .count xs
  obtain ⟨hphase', ⟨-, hout', -⟩, hok', -⟩ :=
    decTransaction_finished hb (decTransaction s.build s.dec .count xs) .emit ys
  rw [hstrip] at hcount hfail
  have hnone : (decodeUnits s.build.lbSet 0 (stripLineBreaks s.build.lbSet ys)).2 = none := by
    cases hr : (decodeUnits s.build.lbSet 0 (stripLineBreaks s.build.lbSet ys)).2 with
    | none => rfl
    | some f => exact absurd ((hfail f hr).err.symm.trans herr) (by decide)
  have hrun' := run_decTxn
    (s := { s with dec := decTransaction s.build s.dec .count xs, inputs := decTxn .emit ys, resp := .accepted })
    hbuild (decRunning_of_idle_or_done (.inr hphase)) (List.append_nil _).symm
  refine ⟨_, hrun', hphase', hok' hnone, ?_⟩
  rw [hcount]
  exact congrArg (·.length % 2 ^ s.build.cntW) hout'

end Sys2Proof.Machine
end

section
/-! SUPPORT. The register port: START as equations of the two units, the views as numbers, and a write as one of the two
STARTs or no effect. -/

namespace Sys2Proof.Machine

variable {s : State}

/-! ### START (R242, R243) -/

theorem exec_encStart_busy (h : s.enc.phase = .busy) (reserved : BitVec 31) :
    exec (.encStart reserved) s = answer s .accepted := congrArg (acceptEnc s) (encStartOp_busy h)

theorem exec_encStart_notBusy (h : s.enc.phase ≠ .busy) (reserved : BitVec 31) :
    exec (.encStart reserved) s = acceptEnc s (startEnc s.enc) := congrArg (acceptEnc s) (encStartOp_start h)

theorem exec_decStart_running (h : decRunning s.dec = true) (m : BitVec 1) (reserved : BitVec 30) :
    exec (.decStart m reserved) s = answer s .accepted := congrArg (acceptDec s) (decStartOp_running h _)

theorem exec_decStart_notRunning (h : decRunning s.dec = false) (m : BitVec 1) (reserved : BitVec 30) :
    exec (.decStart m reserved) s = acceptDec s (startDec s.dec (cmodeOf m)) :=
  congrArg (acceptDec s) (decStartOp_start h _)

/-- Settles O16: START by the phase in which it finds the unit. -/
theorem encStartOpensATransaction : Obligations.EncStartOpensATransaction := by
  intro reserved s
  refine ⟨rfl, ?busy, ?notBusy⟩
  case busy => exact fun hbusy => exec_encStart_busy hbusy reserved
  case notBusy => exact fun hidle => exec_encStart_notBusy hidle reserved

/-- Settles O29: START by the phase in which it finds the unit; a new transaction takes the mode that bit 1 codes. -/
theorem decStartOpensATransaction : Obligations.DecStartOpensATransaction := by
  intro m reserved s
  refine ⟨rfl, ?running, ?notRunning⟩
  case running => exact fun hrunning => exec_decStart_running ((decRunning_iff _).mpr hrunning) m reserved
  case notRunning => exact fun hidle => exec_decStart_notRunning (decRunning_of_idle_or_done hidle) m reserved

/-! ### Views (R44) -/

theorem toNat_encStatus (e : Enc) : (encStatus e).toNat = e.phase.code.toNat + 4 * e.ovf.toNat := by
  rw [encStatus, BitVec.toNat_setWidth_of_le (by decide), toNat_append_eq_mul_add, BitVec.toNat_ofBool]
  omega

theorem toNat_decStatus (d : Dec) :
    (decStatus d).toNat =
      d.phase.code.toNat + 4 * d.err.toNat + 8 * d.errKind.code.toNat + 32 * d.ovf.toNat + 64 * d.cmode.code.toNat := by
  rw [decStatus, BitVec.toNat_setWidth_of_le (by decide)]
  simp only [toNat_append_eq_mul_add, BitVec.toNat_ofBool]
  omega

/-- ENC_CTRL, DEC_CTRL and the reserved numbers read 0 (R45, R48, R53). -/
theorem view_eq_zero {n : BitVec 4} (h : n.toNat = 0 ∨ n.toNat = 4 ∨ 10 ≤ n.toNat) (s : State) : view s n = 0#32 := by
  unfold view
  split
  case h_9 => rfl
  all_goals omega

/-- Settles O44: the status words are sums of their fields; the other registers are read as they stand. -/
theorem rdregReturnsTheView : Obligations.RdregReturnsTheView := by
  intro n wdata s
  refine ⟨rfl, rfl, toNat_encStatus s.enc, rfl, rfl, toNat_decStatus s.dec, rfl, rfl, rfl, ?errSel, ?zero⟩
  case errSel => exact BitVec.toNat_setWidth_of_le (by decide)
  case zero => exact fun hn => view_eq_zero (by bv_omega) s

/-! ### Writes (R245) -/

section

variable {n : BitVec 4} {v : HostWord}

theorem exec_wrreg_encStart (hn : n = 0#4) (hv : v.getLsbD 0 = true) (s : State) :
    exec (.wrreg n v) s = acceptEnc s (encStartOp s.enc) := if_pos ⟨hn, hv⟩

theorem exec_wrreg_decStart (hn : n = 4#4) (hv : v.getLsbD 0 = true) (s : State) :
    exec (.wrreg n v) s = acceptDec s (decStartOp s.dec (cmodeOf (v.extractLsb' 1 1))) := by
  have hne : n ≠ 0#4 := hn ▸ by decide
  exact (if_neg fun ⟨h0, _⟩ => hne h0).trans (if_pos ⟨hn, hv⟩)

theorem exec_wrreg_ignored (h : n ≠ 0#4 ∧ n ≠ 4#4 ∨ v.getLsbD 0 = false) (s : State) :
    exec (.wrreg n v) s = answer s .accepted := by
  rcases h with ⟨hn0, hn4⟩ | hv
  · exact (if_neg fun ⟨h0, _⟩ => hn0 h0).trans (if_neg fun ⟨h4, _⟩ => hn4 h4)
  · have hbit : v.getLsbD 0 ≠ true := Bool.eq_false_iff.mp hv
    exact (if_neg fun ⟨_, hone⟩ => hbit hone).trans (if_neg fun ⟨_, hone⟩ => hbit hone)

end

/-- Settles O45: a write that starts a unit does to it what that START does. -/
theorem wrregOnlyStarts : Obligations.WrregOnlyStarts := by
  intro n v s
  refine ⟨rfl, ?encStart, ?decStart, ?ignored⟩
  case encStart => exact fun hn hv => exec_wrreg_encStart hn hv s
  case decStart => exact fun hn hv => exec_wrreg_decStart hn hv s
  case ignored => exact fun h => exec_wrreg_ignored h s

end Sys2Proof.Machine
end

section
/-! Reset: the RESET action answers the reset values of both units (spec/70_reset_and_hazards.md R300,
spec/10_state.md R56). -/

namespace Sys2Proof.Machine

/-- RESET writes both units whatever they held, and leaves the build and the host's own program as they are (R300). -/
theorem exec_reset (s : State) :
    exec .reset s = .next { s with enc := Enc.reset, dec := Dec.reset, resp := .accepted } := rfl

/-- Settles O46: the state that RESET answers holds `Enc.reset` and `Dec.reset`, which are the rows of R56's table. -/
theorem resetRestoresEveryRegister : Obligations.ResetRestoresEveryRegister := by
  intro s
  refine ⟨_, exec_reset s, ?accepted, ?sameBuild, ?encReset, ?decReset⟩
  case accepted => rfl
  case sameBuild => rfl
  case encReset => rfl
  case decReset => rfl

end Sys2Proof.Machine
end

section
/-! SUPPORT. The encodings (R83-R90): `decode` undoes `encode` port by port, and every word a host can send is the
encoding of a well-formed action, so that `encode` undoes `decode` there. -/

namespace Sys2Proof.Machine

/-! ### The PRIM port (R86) -/

theorem primWord_fields (f : BitVec 4) (a b c : Scalar) :
    (f ++ a ++ b ++ c).extractLsb' 63 4 = f ∧ (f ++ a ++ b ++ c).extractLsb' 42 21 = a ∧
      (f ++ a ++ b ++ c).extractLsb' 21 21 = b ∧ (f ++ a ++ b ++ c).extractLsb' 0 21 = c := by
  simp only [BitVec.toNat_eq, toNat_extractLsb'_eq_div_mod, toNat_append_eq_mul_add]
  omega

theorem reservedCode_cases : ∀ f : BitVec 2, f = 0#2 ∨ f = 1#2 ∨ f = 2#2 ∨ f = 3#2 := by decide

theorem decode_encode_prim {i : Instr} (h : unitOf i = .prim) : decode (encode i) = .ok i := by
  cases i with
  | primClass a b c | primB2u8 a b c | primU82b a b c | primN2u12 a b c | primU122n a b c | primTpack a b c
  | primTunpack a b c | primApack a b c | primAunpack a b c | primRpack a b c | primRunpack a b c
  | primReservedB a b c =>
    simp only [encode, primWord, decode, decodePrim, primWord_fields]
    rfl
  | primReservedCF f a b c =>
    simp only [encode, primWord, decode, decodePrim, primWord_fields]
    obtain rfl | rfl | rfl | rfl := reservedCode_cases f <;> rfl
  | _ => cases h

theorem exists_primWord (pw : BitVec 67) : ∃ (f : BitVec 4) (a b c : Scalar), pw = f ++ a ++ b ++ c := by
  refine ⟨pw.extractLsb' 63 4, pw.extractLsb' 42 21, pw.extractLsb' 21 21, pw.extractLsb' 0 21, ?_⟩
  simp only [BitVec.toNat_eq, toNat_extractLsb'_eq_div_mod, toNat_append_eq_mul_add]
  omega

theorem exists_encode_prim (pw : BitVec 67) : ∃ i : Instr, i.WellFormed ∧ encode i = .prim pw := by
  obtain ⟨⟨n, hn⟩, a, b, c, rfl⟩ := exists_primWord pw
  match n, hn with
  | 0x0, _ => exact ⟨.primClass a b c, rfl, rfl⟩
  | 0x1, _ => exact ⟨.primB2u8 a b c, rfl, rfl⟩
  | 0x2, _ => exact ⟨.primU82b a b c, rfl, rfl⟩
  | 0x3, _ => exact ⟨.primN2u12 a b c, rfl, rfl⟩
  | 0x4, _ => exact ⟨.primU122n a b c, rfl, rfl⟩
  | 0x5, _ => exact ⟨.primTpack a b c, rfl, rfl⟩
  | 0x6, _ => exact ⟨.primTunpack a b c, rfl, rfl⟩
  | 0x7, _ => exact ⟨.primApack a b c, rfl, rfl⟩
  | 0x8, _ => exact ⟨.primAunpack a b c, rfl, rfl⟩
  | 0x9, _ => exact ⟨.primRpack a b c, rfl, rfl⟩
  | 0xA, _ => exact ⟨.primRunpack a b c, rfl, rfl⟩
  | 0xB, _ => exact ⟨.primReservedB a b c, rfl, rfl⟩
  | 0xC, _ => exact ⟨.primReservedCF 0#2 a b c, rfl, rfl⟩
  | 0xD, _ => exact ⟨.primReservedCF 1#2 a b c, rfl, rfl⟩
  | 0xE, _ => exact ⟨.primReservedCF 2#2 a b c, rfl, rfl⟩
  | 0xF, _ => exact ⟨.primReservedCF 3#2 a b c, rfl, rfl⟩
  | n + 16, hn => exact absurd hn (by omega)

/-! ### The register port (R90) -/

theorem regWord_fields (we : BitVec 1) (n : BitVec 4) (v : HostWord) :
    (we ++ n ++ v).getLsbD 36 = we.getLsbD 0 ∧ (we ++ n ++ v).extractLsb' 32 4 = n ∧
      (we ++ n ++ v).extractLsb' 0 32 = v := by
  refine ⟨by rw [BitVec.getLsbD_append, BitVec.getLsbD_append]; rfl, ?_, BitVec.extractLsb'_append_eq_right⟩
  simp only [BitVec.toNat_eq, toNat_extractLsb'_eq_div_mod, toNat_append_eq_mul_add]
  omega

theorem encStartWord_fields (reserved : BitVec 31) :
    (reserved ++ 1#1).getLsbD 0 = true ∧ (reserved ++ 1#1).extractLsb' 1 31 = reserved := by
  refine ⟨by rw [BitVec.getLsbD_append]; rfl, ?_⟩
  simp only [BitVec.toNat_eq, toNat_extractLsb'_eq_div_mod, toNat_append_eq_mul_add, BitVec.toNat_ofNat]
  omega

theorem decStartWord_fields (m : BitVec 1) (reserved : BitVec 30) :
    (reserved ++ m ++ 1#1).getLsbD 0 = true ∧ (reserved ++ m ++ 1#1).extractLsb' 1 1 = m ∧
      (reserved ++ m ++ 1#1).extractLsb' 2 30 = reserved := by
  refine ⟨by rw [BitVec.getLsbD_append]; rfl, ?_⟩
  simp only [BitVec.toNat_eq, toNat_extractLsb'_eq_div_mod, toNat_append_eq_mul_add, BitVec.toNat_ofNat]
  omega

theorem decode_encode_encStart (reserved : BitVec 31) :
    decode (encode (.encStart reserved)) = .ok (.encStart reserved) := by
  simp only [encode, regWord, decode, decodeReg, regWord_fields, encStartWord_fields]
  rfl

theorem decode_encode_decStart_operands (m : BitVec 1) (reserved : BitVec 30) :
    decode (encode (.decStart m reserved)) = .ok (.decStart m reserved) := by
  simp only [encode, regWord, decode, decodeReg, regWord_fields, decStartWord_fields]
  rfl

/-- A well-formed write is neither START. -/
theorem decode_encode_wrreg {n : BitVec 4} {v : HostWord} (h : (Instr.wrreg n v).WellFormed) :
    decode (encode (.wrreg n v)) = .ok (.wrreg n v) := by
  simp only [encode, regWord, decode, decodeReg, regWord_fields]
  simp only [Instr.WellFormed, Instr.wellFormed, Bool.not_eq_true', Bool.and_eq_false_iff, Bool.or_eq_false_iff] at h
  obtain hv | ⟨h0, h4⟩ := h
  · rw [hv]; rfl
  · rw [h0, h4, Bool.and_false]; rfl

theorem decode_encode_rdreg (n : BitVec 4) (v : HostWord) : decode (encode (.rdreg n v)) = .ok (.rdreg n v) := by
  simp only [encode, regWord, decode, decodeReg, regWord_fields]
  rfl

theorem exists_regWord (rw : BitVec 37) : ∃ (we : BitVec 1) (n : BitVec 4) (v : HostWord), rw = we ++ n ++ v := by
  refine ⟨rw.extractLsb' 36 1, rw.extractLsb' 32 4, rw.extractLsb' 0 32, ?_⟩
  simp only [BitVec.toNat_eq, toNat_extractLsb'_eq_div_mod, toNat_append_eq_mul_add]
  omega

theorem toNat_odd_of_bit0 {v : HostWord} (h : v.getLsbD 0 = true) : v.toNat % 2 = 1 := by
  rw [BitVec.getLsbD, Nat.testBit_zero, decide_eq_true_iff] at h
  exact h

theorem exists_encStartWord {v : HostWord} (h : v.getLsbD 0 = true) : ∃ reserved : BitVec 31, v = reserved ++ 1#1 := by
  have hodd := toNat_odd_of_bit0 h
  refine ⟨v.extractLsb' 1 31, ?_⟩
  simp only [BitVec.toNat_eq, toNat_extractLsb'_eq_div_mod, toNat_append_eq_mul_add, BitVec.toNat_ofNat]
  omega

theorem exists_decStartWord {v : HostWord} (h : v.getLsbD 0 = true) :
    ∃ (m : BitVec 1) (reserved : BitVec 30), v = reserved ++ m ++ 1#1 := by
  have hodd := toNat_odd_of_bit0 h
  refine ⟨v.extractLsb' 1 1, v.extractLsb' 2 30, ?_⟩
  simp only [BitVec.toNat_eq, toNat_extractLsb'_eq_div_mod, toNat_append_eq_mul_add, BitVec.toNat_ofNat]
  omega

theorem bit_cases : ∀ b : BitVec 1, b = 0#1 ∨ b = 1#1 := by decide

theorem exists_encode_reg (rw : BitVec 37) : ∃ i : Instr, i.WellFormed ∧ encode i = .reg rw := by
  obtain ⟨we, n, v, rfl⟩ := exists_regWord rw
  obtain rfl | rfl := bit_cases we
  · exact ⟨.rdreg n v, rfl, rfl⟩
  by_cases hstart : v.getLsbD 0 = true ∧ (n = 0#4 ∨ n = 4#4)
  · obtain ⟨hv, rfl | rfl⟩ := hstart
    · obtain ⟨reserved, rfl⟩ := exists_encStartWord hv
      exact ⟨.encStart reserved, rfl, rfl⟩
    · obtain ⟨m, reserved, rfl⟩ := exists_decStartWord hv
      exact ⟨.decStart m reserved, rfl, rfl⟩
  · exact ⟨.wrreg n v, by simpa [Instr.WellFormed, Instr.wellFormed, imp_iff_not_or] using hstart, rfl⟩

/-! ### The data ports (R87, R88) -/

theorem decode_encode_encEnd (data : Byte) : decode (encode (.encEnd data)) = .ok (.encEnd data) := by
  have hend : (1#1 ++ data).getLsbD 8 = true := by
    rw [BitVec.getLsbD_append]
    rfl
  have hdata : (1#1 ++ data).extractLsb' 0 8 = data := BitVec.extractLsb'_append_eq_right
  simp only [encode, decode, decodeEncIn, hend, hdata]
  rfl

theorem decode_encode_decEnd (data : Scalar) : decode (encode (.decEnd data)) = .ok (.decEnd data) := by
  have hend : (1#1 ++ data).getLsbD 21 = true := by
    rw [BitVec.getLsbD_append]
    rfl
  have hdata : (1#1 ++ data).extractLsb' 0 21 = data := BitVec.extractLsb'_append_eq_right
  simp only [encode, decode, decodeDecIn, hend, hdata]
  rfl

theorem exists_encInWord (ein : BitVec 9) : ∃ (last : BitVec 1) (data : Byte), ein = last ++ data := by
  refine ⟨ein.extractLsb' 8 1, ein.extractLsb' 0 8, ?_⟩
  simp only [BitVec.toNat_eq, toNat_extractLsb'_eq_div_mod, toNat_append_eq_mul_add]
  omega

theorem exists_decInWord (din : BitVec 22) : ∃ (last : BitVec 1) (data : Scalar), din = last ++ data := by
  refine ⟨din.extractLsb' 21 1, din.extractLsb' 0 21, ?_⟩
  simp only [BitVec.toNat_eq, toNat_extractLsb'_eq_div_mod, toNat_append_eq_mul_add]
  omega

theorem exists_encode_encIn (ein : BitVec 9) : ∃ i : Instr, i.WellFormed ∧ encode i = .encIn ein := by
  obtain ⟨last, data, rfl⟩ := exists_encInWord ein
  obtain rfl | rfl := bit_cases last
  · exact ⟨.encPush data, rfl, rfl⟩
  · exact ⟨.encEnd data, rfl, rfl⟩

theorem exists_encode_decIn (din : BitVec 22) : ∃ i : Instr, i.WellFormed ∧ encode i = .decIn din := by
  obtain ⟨last, data, rfl⟩ := exists_decInWord din
  obtain rfl | rfl := bit_cases last
  · exact ⟨.decPush data, rfl, rfl⟩
  · exact ⟨.decEnd data, rfl, rfl⟩

/-! ### The encoder's selector (R83) -/

/-- Bit 3 of ESEL is HAS1 (R83). -/
theorem esel_getLsbD_three (w : List Byte) : (esel w).getLsbD 3 = decide (2 ≤ w.length) := by
  have hbit : ∀ h2 h1 r a1 a0 : Bool, (BitVec.ofBool h2 ++ BitVec.ofBool h1 ++ BitVec.ofBool r ++ BitVec.ofBool a1 ++
      BitVec.ofBool a0).getLsbD 3 = h1 := by decide
  exact hbit _ _ _ _ _

/-- The row and the two length bits of ESEL give a token row back with its window. -/
theorem decode_encode_token {i : Instr} (hport : portOf i = .encSel) (h : i.WellFormed) :
    decode (encode i) = .ok i := by
  cases i with
  | eRun w0 w1 w2 =>
    have hrow : encRow (esel [w0, w1, w2]) = some .run := beq_iff_eq.mp h
    simp only [encode, encSelBeat, decode, decodeEncSel, hrow]
    rfl
  | eTriple w0 w1 w2 =>
    have hrow : encRow (esel [w0, w1, w2]) = some .triple := beq_iff_eq.mp h
    simp only [encode, encSelBeat, decode, decodeEncSel, hrow]
    rfl
  | eApair w0 w1 w2 =>
    have hrow : encRow (esel (w0 :: w1 :: w2.toList)) = some .apair := beq_iff_eq.mp h
    simp only [encode, encSelBeat, decode, decodeEncSel, hrow, esel_getLsbD_four]
    cases w2 <;> rfl
  | eSingle w0 w1 =>
    have hrow : encRow (esel (w0 :: w1.toList)) = some .single := beq_iff_eq.mp h
    simp only [encode, encSelBeat, decode, decodeEncSel, hrow, esel_getLsbD_three]
    cases w1 <;> rfl
  | _ => cases hport

/-! ### The decoder's selector (R84) -/

theorem selWord_fields (h : BitVec 1) (c1 c0 : ClassCode) :
    (selWord h c1 c0).extractLsb' 6 1 = h ∧ (selWord h c1 c0).extractLsb' 3 3 = c1 ∧
      (selWord h c1 c0).extractLsb' 0 3 = c0 := by
  simp only [selWord, BitVec.toNat_eq, toNat_extractLsb'_eq_div_mod, toNat_append_eq_mul_add]
  omega

theorem decRow_apair : ∀ (h : BitVec 1) (c1 : ClassCode) (k : BitVec 2), decRow (selWord h c1 (1#1 ++ k)) = .apair := by
  decide

/-- The row of SEL, with its fields where the row leaves them open, gives a decoder row back. -/
theorem decode_encode_row {i : Instr} (hport : portOf i = .decSel) (h : i.WellFormed) : decode (encode i) = .ok i := by
  cases i with
  | dApair hasNext c1 k x =>
    have hk : (1#1 ++ k).extractLsb' 0 2 = k := BitVec.extractLsb'_append_eq_right
    simp only [encode, decode, decodeDecSel, decRow_apair, selWord_fields, hk]
  | dTriple | dRun | dSs => rfl
  | dLast c1 =>
    obtain rfl : c1 = 0#3 := beq_iff_eq.mp h
    rfl
  | dErrPair c1 c0 x =>
    simp only [Instr.WellFormed, Instr.wellFormed, Bool.and_eq_true, beq_iff_eq] at h
    obtain ⟨⟨⟨hrow, -⟩, -⟩, -⟩ := h
    simp only [encode, decode, decodeDecSel, hrow, selWord_fields]
  | dErrLone c1 c0 =>
    simp only [Instr.WellFormed, Instr.wellFormed, Bool.and_eq_true, beq_iff_eq] at h
    obtain ⟨⟨hrow, -⟩, -⟩ := h
    simp only [encode, decode, decodeDecSel, hrow, selWord_fields]
  | _ => cases hport

/-! ### All ports -/

/-- Settles O1: each port's word gives its fields back, and a row's operands are the bits its selector leaves open. -/
theorem decodeInvertsEncode : Obligations.DecodeInvertsEncode := by
  intro i h
  cases i with
  | primClass | primB2u8 | primU82b | primN2u12 | primU122n | primTpack | primTunpack | primApack | primAunpack
  | primRpack | primRunpack | primReservedB | primReservedCF => exact decode_encode_prim rfl
  | eRun | eApair | eTriple | eSingle => exact decode_encode_token rfl h
  | dApair | dTriple | dRun | dSs | dLast | dErrPair | dErrLone => exact decode_encode_row rfl h
  | dSkipLb | reset => rfl
  | encPush x => exact decode_encode_encPush x
  | encEnd data => exact decode_encode_encEnd data
  | decPush x => exact decode_encode_decPush x
  | decEnd data => exact decode_encode_decEnd data
  | encStart reserved => exact decode_encode_encStart reserved
  | decStart m reserved => exact decode_encode_decStart_operands m reserved
  | wrreg => exact decode_encode_wrreg h
  | rdreg n v => exact decode_encode_rdreg n v

/-- Every beat of a host's, but a reset input left at 0, is the encoding of a well-formed action. -/
theorem exists_encode_host {b : Beat} (hhost : b.isHost = true) (hrst : b ≠ .rst 0#1) :
    ∃ i : Instr, i.WellFormed ∧ encode i = b := by
  cases b with
  | prim pw => exact exists_encode_prim pw
  | reg rw => exact exists_encode_reg rw
  | encIn ein => exact exists_encode_encIn ein
  | decIn din => exact exists_encode_decIn din
  | rst level =>
    obtain rfl | rfl := bit_cases level
    · exact absurd rfl hrst
    · exact ⟨.reset, rfl, rfl⟩
  | encSel | decSel | decFilter => cases hhost

/-- Settles O2: a host's beat encodes some well-formed action, and by O1 that is the one it decodes to. -/
theorem encodeInvertsHostDecode : Obligations.EncodeInvertsHostDecode := by
  intro b i hhost hdec
  have hrst : b ≠ .rst 0#1 := by
    rintro rfl
    cases hdec
  obtain ⟨j, hj, rfl⟩ := exists_encode_host hhost hrst
  obtain rfl : j = i := Except.ok.inj ((decodeInvertsEncode j hj).symm.trans hdec)
  exact ⟨rfl, hj⟩

/-- Settles O3: the words of the spec's programs, evaluated. -/
theorem sampleWordsDecode : Obligations.SampleWordsDecode := by
  unfold Obligations.SampleWordsDecode
  decide

/-- Settles O6: the rows of a window of three, two and one bytes. -/
theorem encoderSelectorKeepsThePriority : Obligations.EncoderSelectorKeepsThePriority := by
  refine ⟨fun w0 w1 w2 => ?_, fun w0 w1 => ?_, encRow_esel_one⟩
  · simp only [encRow_esel_three, both_isAscii_iff]
  · simp only [encRow_esel_two, both_isAscii_iff]

/-- Settles O7: the 128 selectors, evaluated. -/
theorem decoderSelectorIsTotal : Obligations.DecoderSelectorIsTotal := by
  unfold Obligations.DecoderSelectorIsTotal
  decide

end Sys2Proof.Machine
end

section
/-! SUPPORT. The round trip on the machine itself: a transaction of ENC, then one of DEC on what the first emitted. -/

namespace Sys2Proof.Machine

/-- A run goes on from where its first part ends. -/
theorem run_add {s t : State} {m : Nat} (h : Sys2Proof.core.run m s = .next t) (n : Nat) :
    Sys2Proof.core.run (m + n) s = Sys2Proof.core.run n t := by
  induction m generalizing s with
  | zero =>
    obtain rfl : s = t := Host.Outcome.next.inj h
    rw [Nat.zero_add]
  | succ m ih =>
    simp only [Host.Core.run] at h
    cases hstep : Sys2Proof.core.step s with
    | next u =>
      rw [hstep] at h
      rw [Nat.add_right_comm, run_succ_of_step hstep]
      exact ih h
    | fault | refused =>
      rw [hstep] at h
      cases h

/-- Settles O43: ENC leaves `encode` of the bytes (R172); the stripped wire is that, and decodes to them (R173). -/
theorem machineRoundTripThroughLineBreaks : Obligations.MachineRoundTripThroughLineBreaks := by
  intro s bytes wire hbuild henc hdec hwire hin
  obtain ⟨-, hb, -⟩ := (buildValid_iff _).mp hbuild
  have hrunEnc := run_encTxn hbuild henc hin
  have hrunDec := run_decTxn
    (s := { s with
      enc := encTransaction s.build s.enc bytes, inputs := decTxn .emit wire, resp := .accepted })
    hbuild (decRunning_of_idle_or_done hdec) (List.append_nil _).symm
  obtain ⟨hphase, ⟨-, hout, -⟩, hok, -⟩ := decTransaction_finished hb s.dec .emit wire
  rw [hwire, decodeUnits_encodeBytes] at hout hok
  exact ⟨_, (run_add hrunEnc _).trans hrunDec, hwire.trans (encTransaction_out hb s.enc bytes).symm,
    encTransaction_phase s.build s.enc bytes, hout, hphase, hok rfl, rfl, rfl⟩

end Sys2Proof.Machine
end

section
/-! SUPPORT. What each action does to each unit (R20, R71 (d)), and what it answers: `exec_eq` ties the three functions
to `exec`, once, and the statements about whole actions argue about one unit at a time. -/

namespace Sys2Proof.Machine

/-! ### The actions of a unit -/

/-- A token row by itself, as an action of ENC; `none` where it is not accepted. -/
def tokenOn (b : Build) (e : Enc) (row : EncRow) (w : List Byte) : Option Enc :=
  if e.phase = .busy ∧ e.mode = .win ∧ encRow (esel w) = some row then
    some (keepRest (tokenAction b e row w).1 (tokenAction b e row w).2)
  else none

/-- What an action does to ENC; `none` where ENC does not accept it. -/
def encAction (b : Build) (e : Enc) : Instr → Option Enc
  | .eRun w0 w1 w2 => tokenOn b e .run [w0, w1, w2]
  | .eApair w0 w1 w2 => tokenOn b e .apair (w0 :: w1 :: w2.toList)
  | .eTriple w0 w1 w2 => tokenOn b e .triple [w0, w1, w2]
  | .eSingle w0 w1 => tokenOn b e .single (w0 :: w1.toList)
  | .encPush x => if e.phase = .busy then some (pushByte b e x) else none
  | .encEnd _ => if e.phase = .busy then some (endInput b e) else none
  | .encStart _ => some (encStartOp e)
  | .wrreg n v => some (if n = 0#4 ∧ v.getLsbD 0 = true then encStartOp e else e)
  | .reset => some Enc.reset
  | _ => some e

/-- What an action does to DEC; `none` where DEC does not accept it. -/
def decAction (b : Build) (d : Dec) : Instr → Option Dec
  | .dSkipLb x => if d.phase == .busy && inLB b.lbSet x then some d else none
  | .dApair _ _ k x =>
    if d.phase == .busy && !d.pv && cls b.lbSet x == 1#1 ++ k then some (outApair b d x) else none
  | .dTriple x => if pairSelects b d x 0b1010010#7 then some (outTriple b d x) else none
  | .dRun x => if pairSelects b d x 0b1010001#7 then some (outRun b d x) else none
  | .dSs x => if pairSelects b d x 0b1001001#7 then some (outSs b d x) else none
  | .dLast cls1 => if loneSelects d (selWord 0#1 cls1 1#3) then some (outLast b d) else none
  | .dErrPair cls1 cls0 x =>
    if pairSelects b d x (selWord 1#1 cls1 cls0) && decRow (selWord 1#1 cls1 cls0) == .errPair then
      some (raiseDecodeError d .pair d.pidx (selWord 1#1 cls1 cls0))
    else none
  | .dErrLone cls1 cls0 =>
    if loneSelects d (selWord 0#1 cls1 cls0) && decRow (selWord 0#1 cls1 cls0) == .errLone then
      some (raiseDecodeError d .lone d.pidx (selWord 0#1 cls1 cls0))
    else none
  | .decPush x => if decRunning d then some (acceptScalar b d x) else none
  | .decEnd _ => if decRunning d then some (endScalars b d) else none
  | .decStart m _ => some (decStartOp d (cmodeOf m))
  | .wrreg n v => some (if n = 4#4 ∧ v.getLsbD 0 = true then decStartOp d (cmodeOf (v.extractLsb' 1 1)) else d)
  | .reset => some Dec.reset
  | _ => some d

/-- ENC after an action; one that is not accepted changes nothing (R241). -/
def encAfter (b : Build) (e : Enc) (i : Instr) : Enc := (encAction b e i).getD e

/-- DEC after an action. -/
def decAfter (b : Build) (d : Dec) (i : Instr) : Dec := (decAction b d i).getD d

/-- The answer to an action that both units accept: a PRIM result, the register read, or no more than that. -/
def acceptedAnswer (s : State) : Instr → Response
  | .rdreg n _ => .rdata (view s n)
  | i => ((primResult s.build.lbSet i).map Response.prim).getD .accepted

/-- What the block answers to an action (R241). -/
def answerTo (s : State) (i : Instr) : Response :=
  if (encAction s.build s.enc i).isSome && (decAction s.build s.dec i).isSome then acceptedAnswer s i else .notAccepted

/-! ### The tie to `exec` -/

section

variable {s : State} {i : Instr}

theorem exec_of_encAction {e : Option Enc} (h : exec i s = e.elim (notAccept s) (acceptEnc s))
    (henc : encAction s.build s.enc i = e) (hdec : decAction s.build s.dec i = some s.dec)
    (hanswer : acceptedAnswer s i = .accepted) :
    exec i s = .next { s with
      enc := encAfter s.build s.enc i, dec := decAfter s.build s.dec i, resp := answerTo s i } := by
  rw [h, encAfter, decAfter, answerTo, henc, hdec, hanswer]
  cases e <;> rfl

theorem exec_of_decAction {d : Option Dec} (h : exec i s = d.elim (notAccept s) (acceptDec s))
    (henc : encAction s.build s.enc i = some s.enc) (hdec : decAction s.build s.dec i = d)
    (hanswer : acceptedAnswer s i = .accepted) :
    exec i s = .next { s with
      enc := encAfter s.build s.enc i, dec := decAfter s.build s.dec i, resp := answerTo s i } := by
  rw [h, encAfter, decAfter, answerTo, henc, hdec, hanswer]
  cases d <;> rfl

theorem acceptEnc_ite (c : Prop) [Decidable c] (e : Enc) (s : State) :
    (if c then acceptEnc s e else notAccept s) = (if c then some e else none).elim (notAccept s) (acceptEnc s) := by
  split <;> rfl

theorem acceptDec_ite (c : Prop) [Decidable c] (d : Dec) (s : State) :
    (if c then acceptDec s d else notAccept s) = (if c then some d else none).elim (notAccept s) (acceptDec s) := by
  split <;> rfl

/-- DEC.PUSH is accepted while a transaction runs (R213, R215, R246). -/
theorem exec_decPush_eq (x : Scalar) (s : State) :
    exec (.decPush x) s =
      if decRunning s.dec then acceptDec s (acceptScalar s.build s.dec x) else notAccept s := by
  split
  case isTrue hrun => exact exec_decPush_running hrun x
  case isFalse hidle =>
    rw [decRunning_iff, not_or] at hidle
    exact (if_neg hidle.1).trans (if_neg hidle.2)

end

/-- Every action answers a next state, in which each unit is what the action makes of it alone. -/
theorem exec_eq (i : Instr) (s : State) :
    exec i s = .next { s with
      enc := encAfter s.build s.enc i, dec := decAfter s.build s.dec i, resp := answerTo s i } := by
  cases i with
  | primClass | primB2u8 | primU82b | primN2u12 | primU122n | primTpack | primTunpack | primApack | primAunpack
  | primRpack | primRunpack | primReservedB | primReservedCF | rdreg | reset | encStart | decStart => rfl
  | eRun | eApair | eTriple | eSingle | encPush | encEnd => exact exec_of_encAction (acceptEnc_ite _ _ s) rfl rfl rfl
  | dSkipLb | dApair | dTriple | dRun | dSs | dLast | dErrPair | dErrLone | decEnd =>
    exact exec_of_decAction (acceptDec_ite _ _ s) rfl rfl rfl
  | decPush x => exact exec_of_decAction ((exec_decPush_eq x s).trans (acceptDec_ite _ _ s)) rfl rfl rfl
  | wrreg n v =>
    by_cases henc : n = 0#4 ∧ v.getLsbD 0 = true
    · have hdec : ¬(n = 4#4 ∧ v.getLsbD 0 = true) := fun h4 => absurd (henc.1.symm.trans h4.1) (by decide)
      exact exec_of_encAction (e := some (encStartOp s.enc)) (exec_wrreg_encStart henc.1 henc.2 s)
        (congrArg some (if_pos henc)) (congrArg some (if_neg hdec)) rfl
    by_cases hdec : n = 4#4 ∧ v.getLsbD 0 = true
    · exact exec_of_decAction (d := some (decStartOp s.dec (cmodeOf (v.extractLsb' 1 1))))
        (exec_wrreg_decStart hdec.1 hdec.2 s) (congrArg some (if_neg henc)) (congrArg some (if_pos hdec)) rfl
    · exact exec_of_encAction (e := some s.enc) ((if_neg henc).trans (if_neg hdec))
        (congrArg some (if_neg henc)) (congrArg some (if_neg hdec)) rfl

theorem exec_eq_next {i : Instr} {s t : State} (h : exec i s = .next t) :
    t = { s with
      enc := encAfter s.build s.enc i, dec := decAfter s.build s.dec i, resp := answerTo s i } :=
  Host.Outcome.next.inj (h.symm.trans (exec_eq i s))

/-! ### Actions of other units -/

section

variable {i j : Instr}

/-- An action of another unit is none that ENC refuses, and leaves ENC alone. -/
theorem encAction_of_other (henc : unitOf i ≠ .enc) (hhost : unitOf i ≠ .host) (b : Build) (e : Enc) :
    encAction b e i = some e := by
  cases i with
  | eRun | eApair | eTriple | eSingle | encPush | encEnd | encStart => exact absurd rfl henc
  | wrreg | reset => exact absurd rfl hhost
  | _ => rfl

theorem decAction_of_other (hdec : unitOf i ≠ .dec) (hhost : unitOf i ≠ .host) (b : Build) (d : Dec) :
    decAction b d i = some d := by
  cases i with
  | dSkipLb | dApair | dTriple | dRun | dSs | dLast | dErrPair | dErrLone | decPush | decEnd | decStart =>
    exact absurd rfl hdec
  | wrreg | reset => exact absurd rfl hhost
  | _ => rfl

theorem encAfter_of_other (henc : unitOf i ≠ .enc) (hhost : unitOf i ≠ .host) (b : Build) (e : Enc) :
    encAfter b e i = e := by
  rw [encAfter, encAction_of_other henc hhost, Option.getD_some]

theorem decAfter_of_other (hdec : unitOf i ≠ .dec) (hhost : unitOf i ≠ .host) (b : Build) (d : Dec) :
    decAfter b d i = d := by
  rw [decAfter, decAction_of_other hdec hhost, Option.getD_some]

/-- Settles O51: the next state is that of `exec_eq`, which changes one unit at most. -/
theorem everyActionCompletesInItsUnit : Obligations.EveryActionCompletesInItsUnit := by
  intro i s
  refine ⟨_, exec_eq i s, rfl, rfl, rfl, fun hprim => ⟨?_, ?_⟩, fun henc => ?_, fun hdec => ?_⟩
  · exact encAfter_of_other (by simp [hprim]) (by simp [hprim]) _ _
  · exact decAfter_of_other (by simp [hprim]) (by simp [hprim]) _ _
  · exact decAfter_of_other (by simp [henc]) (by simp [henc]) _ _
  · exact encAfter_of_other (by simp [hdec]) (by simp [hdec]) _ _

/-! ### Two actions of different units -/

/-- Of two actions of different units one leaves ENC alone, so that ENC ends alike in either order. -/
theorem encAfter_comm (h : unitOf i ≠ unitOf j) (hi : unitOf i ≠ .host) (hj : unitOf j ≠ .host) (b : Build) (e : Enc) :
    encAfter b (encAfter b e i) j = encAfter b (encAfter b e j) i := by
  by_cases henc : unitOf i = .enc
  · have hother : unitOf j ≠ .enc := fun hj' => h (henc.trans hj'.symm)
    rw [encAfter_of_other hother hj, encAfter_of_other hother hj]
  · rw [encAfter_of_other henc hi, encAfter_of_other henc hi]

theorem decAfter_comm (h : unitOf i ≠ unitOf j) (hi : unitOf i ≠ .host) (hj : unitOf j ≠ .host) (b : Build) (d : Dec) :
    decAfter b (decAfter b d i) j = decAfter b (decAfter b d j) i := by
  by_cases hdec : unitOf i = .dec
  · have hother : unitOf j ≠ .dec := fun hj' => h (hdec.trans hj'.symm)
    rw [decAfter_of_other hother hj, decAfter_of_other hother hj]
  · rw [decAfter_of_other hdec hi, decAfter_of_other hdec hi]

theorem acceptedAnswer_congr {s t : State} (hhost : unitOf i ≠ .host) (hbuild : t.build = s.build) :
    acceptedAnswer t i = acceptedAnswer s i := by
  cases i with
  | rdreg => exact absurd rfl hhost
  | _ => simp only [acceptedAnswer, hbuild]

/-- The answer reads the build and the action's own unit alone. -/
theorem answerTo_congr {s t : State} (hhost : unitOf i ≠ .host) (hbuild : t.build = s.build)
    (henc : unitOf i = .enc → t.enc = s.enc) (hdec : unitOf i = .dec → t.dec = s.dec) :
    answerTo t i = answerTo s i := by
  have hencAction : (encAction t.build t.enc i).isSome = (encAction s.build s.enc i).isSome := by
    by_cases hu : unitOf i = .enc
    · rw [hbuild, henc hu]
    · rw [encAction_of_other hu hhost, encAction_of_other hu hhost]
      rfl
  have hdecAction : (decAction t.build t.dec i).isSome = (decAction s.build s.dec i).isSome := by
    by_cases hu : unitOf i = .dec
    · rw [hbuild, hdec hu]
    · rw [decAction_of_other hu hhost, decAction_of_other hu hhost]
      rfl
  rw [answerTo, answerTo, hencAction, hdecAction, acceptedAnswer_congr hhost hbuild]

/-- An action of another unit changes nothing that the answer to `i` reads. -/
theorem answerTo_after_other {s t : State} (h : unitOf i ≠ unitOf j) (hi : unitOf i ≠ .host) (hj : unitOf j ≠ .host)
    (hexec : exec j s = .next t) : answerTo t i = answerTo s i := by
  rw [exec_eq_next hexec]
  refine answerTo_congr hi rfl (fun hu => ?_) fun hu => ?_
  · exact encAfter_of_other (fun hj' => h (hu.trans hj'.symm)) hj _ _
  · exact decAfter_of_other (fun hj' => h (hu.trans hj'.symm)) hj _ _

/-- Settles O52: each action changes and answers from its own unit, which the other leaves alone. -/
theorem unitsCommute : Obligations.UnitsCommute := by
  intro i j s hne hi hj
  refine ⟨_, _, _, _, exec_eq i s, exec_eq j _, exec_eq j s, exec_eq i _, encAfter_comm hne hi hj _ _,
    decAfter_comm hne hi hj _ _, rfl, rfl, rfl, ?_, ?_⟩
  · exact answerTo_after_other hne.symm hj hi (exec_eq i s)
  · exact answerTo_after_other hne hi hj (exec_eq j s)

end

/-! ### A step of the machine (R13, R240) -/

section

variable {s : State} {beat : Beat} {rest : List Beat} {i : Instr}

theorem step_eq_exec (hbuild : buildValid s.build = true) (hin : s.inputs = beat :: rest) (hdec : decode beat = .ok i) :
    step s = holdIfNotAccepted beat (exec i { s with inputs := rest }) := by
  have hfetch : fetch s = some (beat, { s with inputs := rest }) := fetch_eq_some.mpr ⟨rest, hin, rfl⟩
  rw [step, if_pos hbuild, hfetch]
  simp only [hdec]

theorem holdIfNotAccepted_next (beat : Beat) (t : State) :
    holdIfNotAccepted beat (.next t) =
      .next (if t.resp = .notAccepted ∧ beat.isHost = true then { t with held := t.held ++ [beat] } else t) :=
  (apply_ite Host.Outcome.next _ _ _).symm

/-- Settles O49: a step is the action its beat decodes to, with the beat put aside if it was not accepted. -/
theorem stepPerformsTheDecodedAction : Obligations.StepPerformsTheDecodedAction := by
  intro s t beat rest i hbuild hin hdec hexec
  rw [step_eq_exec hbuild hin hdec, hexec, holdIfNotAccepted_next]

/-- A beat of the host's that is refused changes no register and is held (R246). -/
theorem step_of_notAccept (hbuild : buildValid s.build = true) (hin : s.inputs = beat :: rest)
    (hhost : beat.isHost = true) (hdec : decode beat = .ok i)
    (hexec : exec i { s with inputs := rest } = notAccept { s with inputs := rest }) :
    step s = .next { s with inputs := rest, held := s.held ++ [beat], resp := .notAccepted } := by
  rw [step_eq_exec hbuild hin hdec, hexec]
  exact holdIfNotAccepted_held rfl hhost

theorem exec_encIn_notBusy (h : s.enc.phase ≠ .busy) (ein : BitVec 9) :
    exec (decodeEncIn ein) s = notAccept s := by
  unfold decodeEncIn
  split <;> exact if_neg h

theorem exec_decIn_notRunning (h : decRunning s.dec = false) (din : BitVec 22) :
    exec (decodeDecIn din) s = notAccept s := by
  have hrun : ¬(s.dec.phase = .busy ∨ s.dec.phase = .drain) := by rw [← decRunning_iff, h]; exact Bool.false_ne_true
  rw [not_or] at hrun
  unfold decodeDecIn
  split
  · exact if_neg (by simp [h])
  · exact (if_neg hrun.1).trans (if_neg hrun.2)

/-- Settles O48: both beats of a channel are refused there, whatever their data. -/
theorem beatsOutsideATransactionAreHeld : Obligations.BeatsOutsideATransactionAreHeld := by
  intro s rest hbuild
  refine ⟨fun ein hphase hin => ?_, fun din hphase hin => ?_⟩
  · have hidle : s.enc.phase ≠ .busy := by rcases hphase with h | h <;> simp [h]
    exact step_of_notAccept hbuild hin rfl rfl (exec_encIn_notBusy (s := { s with inputs := rest }) hidle ein)
  · have hidle := decRunning_of_idle_or_done hphase
    exact step_of_notAccept hbuild hin rfl rfl (exec_decIn_notRunning (s := { s with inputs := rest }) hidle din)

/-- Settles O50: a host's beat encodes an action, and every action completes. -/
theorem hostStepsNeverStop : Obligations.HostStepsNeverStop := by
  intro s beat rest hbuild hin hhost hrst
  obtain ⟨i, hi, rfl⟩ := exists_encode_host hhost hrst
  rw [step_eq_exec hbuild hin (decodeInvertsEncode i hi), exec_eq, holdIfNotAccepted_next]
  refine ⟨_, rfl, ?_, ?_⟩ <;> split <;> rfl

end

end Sys2Proof.Machine
end

section
/-! SUPPORT. ENC's window (R162-R169): what a push does in WIN mode, and each token row by itself, on the windows that
select it. -/

namespace Sys2Proof.Machine

variable {s : State}

/-! ### Token rows -/

/-- A token row is performed where its window selects it. -/
theorem execToken_selected {row : EncRow} {w : List Byte} (hbusy : s.enc.phase = .busy) (hwin : s.enc.mode = .win)
    (hrow : encRow (esel w) = some row) :
    execToken row w s =
      acceptEnc s (keepRest (tokenAction s.build s.enc row w).1 (tokenAction s.build s.enc row w).2) :=
  if_pos ⟨hbusy, hwin, hrow⟩

theorem not_both_isAscii {x y : Byte} (h : ¬(x.toNat < 128 ∧ y.toNat < 128)) : ¬(isAscii x && isAscii y) = true :=
  fun hxy => h ((both_isAscii_iff x y).mp hxy)

theorem encRow_esel_run (x : Byte) : encRow (esel [x, x, x]) = some .run := by
  rw [encRow_esel_three, if_pos ⟨rfl, rfl⟩]

theorem encRow_esel_triple {x y z : Byte} (hrun : ¬(x = y ∧ y = z)) (hpair : ¬(x.toNat < 128 ∧ y.toNat < 128)) :
    encRow (esel [x, y, z]) = some .triple := by
  rw [encRow_esel_three, if_neg hrun, if_neg (not_both_isAscii hpair)]

theorem encRow_esel_apair_three {x y z : Byte} (hrun : ¬(x = y ∧ y = z)) (hpair : x.toNat < 128 ∧ y.toNat < 128) :
    encRow (esel [x, y, z]) = some .apair := by
  rw [encRow_esel_three, if_neg hrun, if_pos ((both_isAscii_iff x y).mpr hpair)]

theorem encRow_esel_apair_two {x y : Byte} (hpair : x.toNat < 128 ∧ y.toNat < 128) :
    encRow (esel [x, y]) = some .apair := by
  rw [encRow_esel_two, if_pos ((both_isAscii_iff x y).mpr hpair)]

theorem encRow_esel_single_two {x y : Byte} (hpair : ¬(x.toNat < 128 ∧ y.toNat < 128)) :
    encRow (esel [x, y]) = some .single := by
  rw [encRow_esel_two, if_neg (not_both_isAscii hpair)]

/-- Settles O21: the window of three equal bytes selects the row, which leaves no byte over. -/
theorem eRunOpensARun : Obligations.ERunOpensARun := by
  intro w s hbusy hwin
  exact execToken_selected hbusy hwin (encRow_esel_run w)

/-! ### Their scalars as numbers -/

theorem apackBytes_eq_ofNat {x y : Byte} (hx : x.toNat < 128) (hy : y.toNat < 128) :
    apackBytes x y = BitVec.ofNat 21
      (0x5E00 + 0x1000 * (2 * (x.toNat / 64) + y.toNat / 64) + 64 * (x.toNat % 64) + y.toNat % 64) := by
  have hlow {z : Byte} (hz : z.toNat < 128) : (z.setWidth 7).toNat = z.toNat := by
    rw [BitVec.toNat_setWidth, Nat.mod_eq_of_lt hz]
  rw [apackBytes, apack_eq_ofNat, hlow hx, hlow hy]

theorem toU12_tpack_high (x y z : Byte) :
    toU12 (tpack x y z).1 = BitVec.ofNat 21 (0x4E00 + (x.toNat * 16 + y.toNat / 16)) := by
  obtain ⟨hhigh, -⟩ := toNat_tpack x y z
  rw [toU12_eq_ofNat, hhigh]
  congr 2
  omega

theorem toU12_tpack_low (x y z : Byte) :
    toU12 (tpack x y z).2 = BitVec.ofNat 21 (0x4E00 + (y.toNat % 16 * 256 + z.toNat)) := by
  obtain ⟨-, hlow⟩ := toNat_tpack x y z
  rw [toU12_eq_ofNat, hlow]
  congr 2
  omega

/-- Settles O22: with two or three bytes, what is left of the window is what follows the pair. -/
theorem eApairEmitsOneScalar : Obligations.EApairEmitsOneScalar := by
  intro w0 w1 s hbusy hwin h0 h1 u
  have hu : apackBytes w0 w1 = u := apackBytes_eq_ofNat h0 h1
  rw [← hu]
  refine ⟨?two, fun w2 hrun => ?three⟩
  case two =>
    refine (execToken_selected hbusy hwin (encRow_esel_apair_two ⟨h0, h1⟩)).trans ?_
    exact congrArg (acceptEnc s) (keepRest_nil (e := encEmit s.build s.enc (apackBytes w0 w1)) hwin)
  case three =>
    refine (execToken_selected hbusy hwin (encRow_esel_apair_three hrun ⟨h0, h1⟩)).trans ?_
    exact congrArg (acceptEnc s) (keepRest_one (e := encEmit s.build s.enc (apackBytes w0 w1)) hwin w2)

/-- Settles O23: both halves of the group are emitted, and no byte is left over. -/
theorem eTripleEmitsTwoScalars : Obligations.ETripleEmitsTwoScalars := by
  intro w0 w1 w2 s hbusy hwin hrun hpair u v
  have hu : toU12 (tpack w0 w1 w2).1 = u := toU12_tpack_high w0 w1 w2
  have hv : toU12 (tpack w0 w1 w2).2 = v := toU12_tpack_low w0 w1 w2
  rw [← hu, ← hv]
  refine (execToken_selected hbusy hwin (encRow_esel_triple hrun hpair)).trans ?_
  exact congrArg (acceptEnc s) (keepRest_nil
    (e := encEmit s.build (encEmit s.build s.enc (toU12 (tpack w0 w1 w2).1)) (toU12 (tpack w0 w1 w2).2)) hwin)

/-- Settles O24: with one or two bytes, what is left of the window is what follows the first. -/
theorem eSingleEmitsOneScalar : Obligations.ESingleEmitsOneScalar := by
  intro w0 s hbusy hwin u
  have hu : toU8 w0 = u := toU8_eq_ofNat w0
  rw [← hu]
  refine ⟨?one, fun w1 hpair => ?two⟩
  case one =>
    refine (execToken_selected hbusy hwin (encRow_esel_one w0)).trans ?_
    exact congrArg (acceptEnc s) (keepRest_nil (e := encEmit s.build s.enc (toU8 w0)) hwin)
  case two =>
    refine (execToken_selected hbusy hwin (encRow_esel_single_two hpair)).trans ?_
    exact congrArg (acceptEnc s) (keepRest_one (e := encEmit s.build s.enc (toU8 w0)) hwin w1)

/-! ### Pushes in WIN mode -/

theorem pushWin_zero {e : Enc} (h : e.wcnt = 0#2) (b : Build) (x : Byte) :
    pushWin b e x = { e with w0 := x, wcnt := 1#2 } := if_pos h

theorem pushWin_one {e : Enc} (h : e.wcnt = 1#2) (b : Build) (x : Byte) :
    pushWin b e x = { e with w1 := x, wcnt := 2#2 } :=
  (if_neg (by simp [h])).trans (if_pos h)

theorem pushWin_full {e : Enc} (h : e.wcnt = 2#2) (b : Build) (x : Byte) :
    pushWin b e x = keepRest (decideWindow b e [e.w0, e.w1, x]).1 (decideWindow b e [e.w0, e.w1, x]).2 :=
  (if_neg (by simp [h])).trans (if_neg (by simp [h]))

theorem exec_encPush_win (hbusy : s.enc.phase = .busy) (hwin : s.enc.mode = .win) (x : Byte) :
    exec (.encPush x) s = acceptEnc s (pushWin s.build (countIn s.build s.enc) x) := by
  rw [exec_encPush_busy hbusy, pushByte_win hwin]

/-- Settles O17: a window of no or one byte has room. -/
theorem encPushFillsTheWindow : Obligations.EncPushFillsTheWindow := by
  intro x s hbusy hwin
  rw [exec_encPush_win hbusy hwin]
  refine ⟨fun h0 => ?none, fun h1 => ?one⟩
  case none => rw [pushWin_zero (e := countIn s.build s.enc) h0]; rfl
  case one => rw [pushWin_one (e := countIn s.build s.enc) h1]; rfl

/-- The push that fills the window is the row that the window selects, performed on the counted byte. -/
theorem exec_encPush_full {row : EncRow} {x : Byte} (hbusy : s.enc.phase = .busy) (hwin : s.enc.mode = .win)
    (hfull : s.enc.wcnt = 2#2) (hrow : encRow (esel [s.enc.w0, s.enc.w1, x]) = some row) :
    exec (.encPush x) s = execToken row [s.enc.w0, s.enc.w1, x] { s with enc := countIn s.build s.enc } := by
  rw [exec_encPush_win hbusy hwin, pushWin_full (e := countIn s.build s.enc) hfull]
  rw [execToken_selected (s := { s with enc := countIn s.build s.enc }) hbusy hwin hrow]
  simp only [countIn_w0, countIn_w1, decideWindow_of_row hrow]
  rfl

/-- Settles O18: the row selected is the first in R83's order. -/
theorem encPushDecidesAFullWindow : Obligations.EncPushDecidesAFullWindow := by
  intro x s hbusy hwin hfull
  split_ifs with hrun hpair
  · obtain ⟨h01, h12⟩ := hrun
    refine exec_encPush_full hbusy hwin hfull ?_
    rw [h01, h12]
    exact encRow_esel_run x
  · exact exec_encPush_full hbusy hwin hfull (encRow_esel_apair_three hrun hpair)
  · exact exec_encPush_full hbusy hwin hfull (encRow_esel_triple hrun hpair)

end Sys2Proof.Machine
end

section
/-! SUPPORT. The length of what the batch encoder writes (R174), and the runs it cuts (R175). -/

namespace Sys2Proof.Machine

/-- Every token but a single is shorter than the bytes it stands for. -/
theorem encodeBytes_length (l : List Byte) :
    (encodeBytes l).length < l.length ∨ l.length ≤ 2 ∧ encodeBytes l = l.map toU8 := by
  induction l using encode_induction with
  | nil => exact .inr ⟨Nat.zero_le 2, rfl⟩
  | single a => exact .inr ⟨Nat.le_succ 1, rfl⟩
  | singles a b hab => exact .inr ⟨le_refl 2, encodeBytes_singles hab⟩
  | run b n rest htoken _ =>
    have hge := htoken.min_le
    have hrest := length_encodeBytes_le rest
    rw [encodeBytes_run htoken]
    simp only [List.length_cons, List.length_append, List.length_replicate]
    omega
  | apair a b rest hno ha hb _ =>
    have hrest := length_encodeBytes_le rest
    rw [encodeBytes_apair hno ha hb]
    simp only [List.length_cons]
    omega
  | triple a b c rest hne hab _ =>
    have hrest := length_encodeBytes_le rest
    rw [encodeBytes_triple hne hab]
    simp only [List.length_cons]
    omega

/-- Settles O26: only where each byte is a single are there as many scalars as bytes. -/
theorem encodeNeverLengthens : Obligations.EncodeNeverLengthens := by
  intro bytes
  refine ⟨length_encodeBytes_le bytes, fun heq => ?_⟩
  exact (encodeBytes_length bytes).resolve_left (by omega)

/-- A full run in front of anything is one token (R164). -/
theorem encodeBytes_fullRun (b : Byte) (rest : List Byte) :
    encodeBytes (List.replicate 4095 b ++ rest) = [toU8 b, 0x5DFF#21] ++ encodeBytes rest := by
  have htoken : RunToken b 4095 rest := ⟨by decide, le_refl 4095, .inl rfl⟩
  rw [encodeBytes_run htoken]
  rfl

theorem encodeBytes_fullRuns (b : Byte) (q r : Nat) :
    encodeBytes (List.replicate (4095 * q + r) b) =
      (List.replicate q [toU8 b, 0x5DFF#21]).flatten ++ encodeBytes (List.replicate r b) := by
  induction q with
  | zero => rw [Nat.mul_zero, Nat.zero_add]; rfl
  | succ q ih =>
    have hsplit : 4095 * (q + 1) + r = 4095 + (4095 * q + r) := by omega
    rw [hsplit, List.replicate_add, encodeBytes_fullRun, ih, List.replicate_succ, List.flatten_cons, List.append_assoc]

/-- Settles O27: full runs come off one by one, and a shorter run of 3 or more is a token of its own. -/
theorem encodeCutsLongRuns : Obligations.EncodeCutsLongRuns := by
  intro b q r hr
  refine ⟨encodeBytes_fullRuns b q r, fun hge => ?_⟩
  have htoken : RunToken b r [] := ⟨hge, hr.le, .inr rfl⟩
  have hrun := encodeBytes_run htoken
  rwa [List.append_nil, toU12_eq_ofNat, BitVec.toNat_ofNat, Nat.mod_eq_of_lt (by omega)] at hrun

end Sys2Proof.Machine
end

section
/-! SUPPORT. DEC's output as one update, its pushes in BUSY, and each decoder row by itself where its selector is formed
(R202-R213). -/

namespace Sys2Proof.Machine

variable {s : State}

/-! ### A burst of bytes (R202) -/

theorem countUp_eq_zero_iff {k : Nat} (hk : k ≤ 32) {c : HostWord} (hc : c.toNat < 2 ^ k) :
    countUp k c = 0#32 ↔ 2 ^ k ≤ c.toNat + 1 := by
  rw [BitVec.toNat_eq, countUp_toNat hk, BitVec.toNat_ofNat, Nat.zero_mod]
  constructor
  · intro h
    by_contra hlt
    rw [Nat.mod_eq_of_lt (by omega)] at h
    omega
  · intro h
    rw [show c.toNat + 1 = 2 ^ k by omega, Nat.mod_self]

/-- A burst wraps the count with its first byte or with the rest. -/
theorem wraps_cons_iff {k : Nat} (hk : k ≤ 32) {c : HostWord} (hc : c.toNat < 2 ^ k) (n : Nat) :
    2 ^ k ≤ c.toNat + (n + 1) ↔ countUp k c = 0#32 ∨ 2 ^ k ≤ (countUp k c).toNat + n := by
  rw [countUp_eq_zero_iff hk hc, countUp_toNat hk]
  by_cases hwrap : 2 ^ k ≤ c.toNat + 1
  · exact iff_of_true (by omega) (.inl hwrap)
  · rw [Nat.mod_eq_of_lt (by omega)]
    omega

/-- Settles O30: byte by byte; a burst that wraps the count has set OVF at the byte that wrapped it. -/
theorem decodedBytesAreEmittedAndCounted : Obligations.DecodedBytesAreEmittedAndCounted := by
  intro b d xs hbuild hlt
  obtain ⟨-, hb, -⟩ := (buildValid_iff _).mp hbuild
  induction xs generalizing d with
  | nil =>
    have hcount : BitVec.ofNat 32 (d.outCount.toNat % 2 ^ b.cntW) = d.outCount := by
      rw [Nat.mod_eq_of_lt hlt, BitVec.ofNat_toNat, BitVec.setWidth_eq]
    simp [hcount, Nat.not_le.mpr hlt]
  | cons x xs ih =>
    have hout : (if d.cmode = .emit then (decOut b d x).out ++ xs else (decOut b d x).out) =
        if d.cmode = .emit then d.out ++ x :: xs else d.out := by
      cases hm : d.cmode <;> simp [hm]
    have hcount : ((countUp b.cntW d.outCount).toNat + xs.length) % 2 ^ b.cntW =
        (d.outCount.toNat + (x :: xs).length) % 2 ^ b.cntW := by
      rw [countUp_toNat hb, Nat.mod_add_mod, List.length_cons, Nat.add_assoc, Nat.add_comm 1]
    have hovf : (stickyOvf d.ovf (countUp b.cntW d.outCount) ||
          decide (2 ^ b.cntW ≤ (countUp b.cntW d.outCount).toNat + xs.length)) =
        (d.ovf || decide (2 ^ b.cntW ≤ d.outCount.toNat + (x :: xs).length)) := by
      simp only [List.length_cons, wraps_cons_iff hb hlt, stickyOvf, Bool.decide_or, Bool.or_assoc]
      rfl
    rw [decOuts_cons, ih _ (countUp_lt hb _), ← hout, ← hcount, ← hovf]
    rfl

/-! ### The bytes of one scalar -/

theorem fromU8_eq_ofNat {x : Scalar} (h : 0x400 ≤ x.toNat ∧ x.toNat ≤ 0x4FF) :
    fromU8 x = BitVec.ofNat 8 (x.toNat - 0x400) := by
  rw [← toNat_fromU8 h, BitVec.ofNat_toNat, BitVec.setWidth_eq]

theorem fromU12_eq_ofNat {x : Scalar} (h : 0x4E00 ≤ x.toNat ∧ x.toNat ≤ 0x5DFF) :
    fromU12 x = BitVec.ofNat 12 (x.toNat - 0x4E00) := by
  rw [← toNat_fromU12 h, BitVec.ofNat_toNat, BitVec.setWidth_eq]

theorem aunpackBytes_eq_ofNat {x : Scalar} (h : 0x5E00 ≤ x.toNat ∧ x.toNat ≤ 0x9DFF) :
    aunpackBytes x =
      [BitVec.ofNat 8 (64 * ((x.toNat - 0x5E00) / 8192) + (x.toNat - 0x5E00) / 64 % 64),
        BitVec.ofNat 8 (64 * ((x.toNat - 0x5E00) / 4096 % 2) + (x.toNat - 0x5E00) % 64)] := by
  obtain ⟨h1, h2⟩ := toNat_aunpack h
  rw [← h1, ← h2, BitVec.ofNat_toNat, BitVec.ofNat_toNat, aunpackBytes]

theorem cls_of_u8 {x : Scalar} (h : 0x400 ≤ x.toNat ∧ x.toNat ≤ 0x4FF) (lb : List Scalar) : cls lb x = 1#3 :=
  beq_iff_eq.mp ((inU8_iff lb x).mpr h)

theorem cls_of_u12 {x : Scalar} (h : 0x4E00 ≤ x.toNat ∧ x.toNat ≤ 0x5DFF) (lb : List Scalar) : cls lb x = 2#3 :=
  beq_iff_eq.mp ((inU12_iff lb x).mpr h)

theorem wideCode_block : ∀ k : BitVec 2, wideCode (k.toNat + 1) = 1#1 ++ k := by decide

/-- The class of a scalar of U12a block `k` is `k` behind the bit of U12a (R82). -/
theorem cls_of_block {x : Scalar} {k : BitVec 2}
    (h : 0x5E00 + 4096 * k.toNat ≤ x.toNat ∧ x.toNat < 0x6E00 + 4096 * k.toNat) (lb : List Scalar) :
    cls lb x = 1#1 ++ k := by
  have hk := k.isLt
  rw [← wideCode_block, cls_eq_wideCode_iff lb x (by omega)]
  omega

/-! ### Rows by themselves -/

theorem execRow_selected {c : Bool} (h : c = true) (d : Dec) (s : State) : execRow c d s = acceptDec s d := if_pos h

theorem pairSelects_formed {x : Scalar} {sel : BitVec 7} (hbusy : s.dec.phase = .busy) (hpv : s.dec.pv = true)
    (hx : cls s.build.lbSet x ≠ 3#3) (hsel : selWord 1#1 (cls s.build.lbSet x) s.dec.pc = sel) :
    pairSelects s.build s.dec x sel = true := (pairSelects_iff _ _ _ _).mpr ⟨hbusy, hpv, hx, hsel⟩

/-- The pending class and the arriving one form the selector of a pair row. -/
theorem pairSelects_of_classes {x : Scalar} {c1 c0 : ClassCode} (hbusy : s.dec.phase = .busy) (hpv : s.dec.pv = true)
    (hne : c1 ≠ 3#3) (hpc : s.dec.pc = c0) (hx : cls s.build.lbSet x = c1) :
    pairSelects s.build s.dec x (selWord 1#1 c1 c0) = true :=
  pairSelects_formed hbusy hpv (hx ▸ hne) (by rw [hx, hpc])

/-- Settles O36: the block's number is the bits that `aunpack` puts on top. -/
theorem dApairGivesTwoBytes : Obligations.DApairGivesTwoBytes := by
  intro hasNext cls1 k x s hbusy hpv hlow hhigh
  have hk := k.isLt
  have hcls := cls_of_block ⟨hlow, hhigh⟩ s.build.lbSet
  have hsel : (s.dec.phase == .busy && !s.dec.pv && cls s.build.lbSet x == 1#1 ++ k) = true := by
    simp [hbusy, hpv, hcls]
  have hblock1 : (x.toNat - 0x5E00) / 8192 = k.toNat / 2 := by omega
  have hblock2 : (x.toNat - 0x5E00) / 4096 % 2 = k.toNat % 2 := by omega
  refine (execRow_selected hsel _ s).trans ?_
  rw [outApair, aunpackBytes_eq_ofNat (by omega), hblock1, hblock2]
  rfl

/-- Settles O37: each row where its selector is formed, with the arriving scalar's value in arithmetic. -/
theorem decoderPendingRowsDecode : Obligations.DecoderPendingRowsDecode := by
  intro x s hbusy hpv
  refine ⟨?triple, ?run, ?ss, ?last⟩
  case triple =>
    intro hpc hlow hhigh
    have hsel := pairSelects_of_classes hbusy hpv (by decide) hpc (cls_of_u12 ⟨hlow, hhigh⟩ _)
    rw [← fromU12_eq_ofNat ⟨hlow, hhigh⟩]
    exact execRow_selected hsel _ s
  case run =>
    intro hpc hlow hhigh
    have hsel := pairSelects_of_classes hbusy hpv (by decide) hpc (cls_of_u12 ⟨hlow, hhigh⟩ _)
    rw [← toNat_fromU12 ⟨hlow, hhigh⟩]
    exact execRow_selected hsel _ s
  case ss =>
    intro hpc hlow hhigh
    have hsel := pairSelects_of_classes hbusy hpv (by decide) hpc (cls_of_u8 ⟨hlow, hhigh⟩ _)
    rw [← fromU8_eq_ofNat ⟨hlow, hhigh⟩]
    exact execRow_selected hsel _ s
  case last =>
    intro hpc
    have hsel : loneSelects s.dec (selWord 0#1 0#3 1#3) = true := (loneSelects_iff _ _).mpr ⟨hbusy, hpv, by rw [hpc]⟩
    exact execRow_selected hsel _ s

theorem selWord_pair_eq_ofNat (c1 c0 : ClassCode) :
    selWord 1#1 c1 c0 = BitVec.ofNat 7 (64 + 8 * c1.toNat + c0.toNat) := by
  have h1 := c1.isLt
  have h0 := c0.isLt
  simp only [selWord, BitVec.toNat_eq, toNat_append_eq_mul_add, BitVec.toNat_ofNat]
  omega

/-- Settles O38: the selector recorded is the one formed. -/
theorem decoderErrorRowsDrain : Obligations.DecoderErrorRowsDrain := by
  intro x s hbusy hpv
  refine ⟨fun hx hrow => ?pair, fun hpc => ?lone⟩
  case pair =>
    have hsel := pairSelects_formed hbusy hpv hx rfl
    rw [← selWord_pair_eq_ofNat]
    exact execRow_selected (by rw [hsel, hrow]; rfl) _ s
  case lone =>
    have hsel : loneSelects s.dec (selWord 0#1 0#3 s.dec.pc) = true := (loneSelects_iff _ _).mpr ⟨hbusy, hpv, rfl⟩
    have hrow : decRow (selWord 0#1 0#3 s.dec.pc) = .errLone := by
      rcases hpc with h | h <;> rw [h] <;> rfl
    rw [← selWord_lone_eq_ofNat]
    exact execRow_selected (by rw [hsel, hrow]; rfl) _ s

/-! ### Pushes in BUSY (R213) -/

/-- Settles O31: the filter comes before everything else. -/
theorem lineBreaksChangeNoRegister : Obligations.LineBreaksChangeNoRegister := by
  intro x s hbusy hx
  refine ⟨?push, ?skip⟩
  case push =>
    rw [exec_decPush_busy hbusy, pushScalar_lineBreak hx]
    rfl
  case skip => exact execRow_selected (by simp [hbusy, inLB, hx]) s.dec s

/-- Settles O32: a scalar is in U12a, and gives its two bytes, or it is held. -/
theorem decPushHoldsOrUnpacks : Obligations.DecPushHoldsOrUnpacks := by
  intro x s hbusy hpv hx
  rw [exec_decPush_busy hbusy]
  by_cases hrange : 0x5E00 ≤ x.toNat ∧ x.toNat ≤ 0x9DFF
  · have hu12a : inU12a s.build.lbSet x = true := (inU12a_iff _ _).mpr hrange
    rw [if_pos hrange, pushScalar_unpack hx hpv hu12a, aunpackBytes_eq_ofNat hrange]
    rfl
  · have hu12a : inU12a s.build.lbSet x = false := Bool.eq_false_iff.mpr (mt (inU12a_iff _ _).mp hrange)
    rw [if_neg hrange, pushScalar_hold hx hpv hu12a]
    rfl

/-- With a scalar pending that is not in U12a, the table of R84 makes the tests of R213. -/
theorem decRow_pair : ∀ c1 c0 : ClassCode, c0.getLsbD 2 = false →
    decRow (selWord 1#1 c1 c0) =
      if selWord 1#1 c1 c0 = 0b1010010#7 then .triple
      else if selWord 1#1 c1 c0 = 0b1010001#7 then .run
      else if selWord 1#1 c1 c0 = 0b1001001#7 then .ss
      else .errPair := by
  decide

/-- Settles O33: the push classifies the pair as the selector's row by itself does. -/
theorem decPushClassifiesThePair : Obligations.DecPushClassifiesThePair := by
  intro x s hbusy hpv hpc hx
  have hrow := decRow_pair (cls s.build.lbSet x) s.dec.pc hpc
  have hsel {sel : BitVec 7} (h : selWord 1#1 (cls s.build.lbSet x) s.dec.pc = sel) :=
    pairSelects_formed (s := { s with dec := countIdx s.build s.dec }) hbusy hpv hx h
  rw [exec_decPush_busy hbusy, pushScalar_pending hx hpv, classifyPair, countIdx_pc]
  have hperformed {c : Bool} (hc : c = true) (d : Dec) :
      acceptDec s d = execRow c d { s with dec := countIdx s.build s.dec } :=
    (execRow_selected hc d { s with dec := countIdx s.build s.dec }).symm
  split_ifs at hrow ⊢ with htriple hrun hss
  · rw [hrow]; exact hperformed (hsel htriple) _
  · rw [hrow]; exact hperformed (hsel hrun) _
  · rw [hrow]; exact hperformed (hsel hss) _
  · rw [hrow]; exact hperformed (Bool.and_eq_true_iff.mpr ⟨hsel rfl, beq_iff_eq.mpr hrow⟩) _

/-! ### Rows that wait (log entry 7) -/

/-- A token row waits outside BUSY, in RUN mode, or on a window that selects another row. -/
theorem execToken_waits {row : EncRow} {w : List Byte}
    (h : s.enc.phase ≠ .busy ∨ s.enc.mode = .run ∨ encRow (esel w) ≠ some row) : execToken row w s = notAccept s := by
  refine if_neg ?_
  rintro ⟨hbusy, hwin, hrow⟩
  rcases h with h | h | h
  · exact h hbusy
  · rw [hwin] at h
    cases h
  · exact h hrow

/-- A window that selects `row` selects no other. -/
theorem encRow_ne {w : List Byte} {row row' : EncRow} (h : encRow (esel w) = some row) (hne : row ≠ row') :
    encRow (esel w) ≠ some row' := by
  rw [h]
  exact fun heq => hne (Option.some.inj heq)

theorem encRow_esel_ne_apair {w0 w1 : Byte} (h : 128 ≤ w0.toNat ∨ 128 ≤ w1.toNat) (o : Option Byte) :
    encRow (esel (w0 :: w1 :: o.toList)) ≠ some .apair := by
  have hpair : ¬(w0.toNat < 128 ∧ w1.toNat < 128) := by omega
  cases o with
  | none => exact encRow_ne (encRow_esel_single_two hpair) (by decide)
  | some w2 =>
    by_cases hrun : w0 = w1 ∧ w1 = w2
    · obtain ⟨rfl, rfl⟩ := hrun
      exact encRow_ne (encRow_esel_run w0) (by decide)
    · exact encRow_ne (encRow_esel_triple hrun hpair) (by decide)

theorem encRow_esel_ne_run_three {w0 w1 w2 : Byte} (hrun : ¬(w0 = w1 ∧ w1 = w2)) :
    encRow (esel [w0, w1, w2]) ≠ some .run := by
  by_cases hpair : w0.toNat < 128 ∧ w1.toNat < 128
  · exact encRow_ne (encRow_esel_apair_three hrun hpair) (by decide)
  · exact encRow_ne (encRow_esel_triple hrun hpair) (by decide)

theorem encRow_esel_ne_triple {w0 w1 : Byte} (hpair : w0.toNat < 128 ∧ w1.toNat < 128) (w2 : Byte) :
    encRow (esel [w0, w1, w2]) ≠ some .triple := by
  by_cases hrun : w0 = w1 ∧ w1 = w2
  · obtain ⟨rfl, rfl⟩ := hrun
    exact encRow_ne (encRow_esel_run w0) (by decide)
  · exact encRow_ne (encRow_esel_apair_three hrun hpair) (by decide)

theorem execRow_waits {c : Bool} (h : ¬c = true) (d : Dec) (s : State) : execRow c d s = notAccept s := if_neg h

theorem not_pairSelects_of_phase_or_pv {x : Scalar} {sel : BitVec 7} (h : s.dec.phase ≠ .busy ∨ s.dec.pv = false) :
    ¬pairSelects s.build s.dec x sel = true := by
  rw [pairSelects_iff]
  rintro ⟨hbusy, hpv, -, -⟩
  rcases h with h | h
  · exact h hbusy
  · simp [hpv] at h

theorem not_loneSelects_of_phase_or_pv {sel : BitVec 7} (h : s.dec.phase ≠ .busy ∨ s.dec.pv = false) :
    ¬loneSelects s.dec sel = true := by
  rw [loneSelects_iff]
  rintro ⟨hbusy, hpv, -⟩
  rcases h with h | h
  · exact h hbusy
  · simp [hpv] at h

theorem not_pairSelects_of_classes {x : Scalar} {c1 c0 : ClassCode}
    (h : s.dec.pc ≠ c0 ∨ cls s.build.lbSet x ≠ c1 ∨ c1 = 3#3) :
    ¬pairSelects s.build s.dec x (selWord 1#1 c1 c0) = true := by
  rw [pairSelects_iff, selWord_pair_eq_iff]
  rintro ⟨-, -, hlb, hpc, hx⟩
  rcases h with h | h | h
  · exact h hpc
  · exact h hx
  · exact hlb (hx.trans h)

theorem selWord_lone_eq_iff (c0 k1 k0 : ClassCode) : selWord 0#1 0#3 c0 = selWord 0#1 k1 k0 ↔ c0 = k0 ∧ k1 = 0#3 := by
  have hc := c0.isLt
  have hk := k0.isLt
  simp only [selWord, BitVec.toNat_eq, toNat_append_eq_mul_add, BitVec.toNat_ofNat]
  omega

theorem not_loneSelects_of_classes {c1 c0 : ClassCode} (h : s.dec.pc ≠ c0 ∨ c1 ≠ 0#3) :
    ¬loneSelects s.dec (selWord 0#1 c1 c0) = true := by
  rw [loneSelects_iff, selWord_lone_eq_iff]
  rintro ⟨-, -, hpc, hc1⟩
  rcases h with h | h
  · exact h hpc
  · exact h hc1

/-- Settles O39: one clause for each thing that a row needs. -/
theorem rowsNeedTheirSelector : Obligations.RowsNeedTheirSelector := by
  intro w0 w1 w2 o h c1 c0 k x s waits
  refine ⟨?encIdle, ?equal, ?notRun, ?ascii, ?notAscii, ?skip, ?apair, ?decIdle, ?triple, ?run, ?ss, ?last, ?errPair,
    ?errLone⟩
  case encIdle =>
    intro hidle
    have hwait {row : EncRow} {w : List Byte} : execToken row w s = notAccept s :=
      execToken_waits (hidle.imp_right .inl)
    exact ⟨hwait, hwait, hwait, hwait⟩
  case equal =>
    rintro ⟨rfl, rfl⟩
    have hwait {row : EncRow} (hne : .run ≠ row) :=
      execToken_waits (s := s) (.inr (.inr (encRow_ne (encRow_esel_run w0) hne)))
    exact ⟨hwait (by decide), hwait (by decide)⟩
  case notRun => exact fun hrun => execToken_waits (.inr (.inr (encRow_esel_ne_run_three hrun)))
  case ascii =>
    intro hpair
    exact ⟨execToken_waits (.inr (.inr (encRow_esel_ne_triple hpair w2))),
      execToken_waits (.inr (.inr (encRow_ne (encRow_esel_apair_two hpair) (by decide))))⟩
  case notAscii => exact fun hhigh => execToken_waits (.inr (.inr (encRow_esel_ne_apair hhigh o)))
  case skip =>
    intro hneeds
    refine execRow_waits ?_ s.dec s
    rw [inLB, Bool.and_eq_true, beq_iff_eq, beq_iff_eq, not_and_or]
    exact hneeds
  case apair =>
    intro hneeds
    refine execRow_waits ?_ _ s
    rw [Bool.and_eq_true, Bool.and_eq_true, beq_iff_eq, beq_iff_eq, Bool.not_eq_true', not_and_or, not_and_or, or_assoc,
      Bool.not_eq_false]
    exact hneeds
  case decIdle =>
    intro hneeds
    have hpair {sel : BitVec 7} := not_pairSelects_of_phase_or_pv (x := x) (sel := sel) hneeds
    have hlone {sel : BitVec 7} := not_loneSelects_of_phase_or_pv (sel := sel) hneeds
    refine ⟨execRow_waits hpair _ s, execRow_waits hpair _ s, execRow_waits hpair _ s, execRow_waits hlone _ s,
      execRow_waits ?_ _ s, execRow_waits ?_ _ s⟩
    · exact fun hsel => hpair (Bool.and_eq_true_iff.mp hsel).1
    · exact fun hsel => hlone (Bool.and_eq_true_iff.mp hsel).1
  case triple => exact fun hneeds => execRow_waits (not_pairSelects_of_classes (hneeds.imp_right .inl)) _ s
  case run => exact fun hneeds => execRow_waits (not_pairSelects_of_classes (hneeds.imp_right .inl)) _ s
  case ss => exact fun hneeds => execRow_waits (not_pairSelects_of_classes (hneeds.imp_right .inl)) _ s
  case last => exact fun hneeds => execRow_waits (not_loneSelects_of_classes hneeds) _ s
  case errPair =>
    intro hneeds
    refine execRow_waits (fun hsel => ?_) _ s
    obtain ⟨hpair, hrow⟩ := Bool.and_eq_true_iff.mp hsel
    rcases hneeds with h | h | h | h
    · exact not_pairSelects_of_classes (.inl h) hpair
    · exact not_pairSelects_of_classes (.inr (.inl h)) hpair
    · exact not_pairSelects_of_classes (.inr (.inr h)) hpair
    · exact h (beq_iff_eq.mp hrow)
  case errLone =>
    intro hneeds
    refine execRow_waits (fun hsel => ?_) _ s
    obtain ⟨hlone, hrow⟩ := Bool.and_eq_true_iff.mp hsel
    rcases hneeds with h | h | h
    · exact not_loneSelects_of_classes (.inl h) hlone
    · exact not_loneSelects_of_classes (.inr h) hlone
    · exact h (beq_iff_eq.mp hrow)

end Sys2Proof.Machine
end

section
/-! SUPPORT. The moves of each unit: an action leaves a unit as it was, or makes one of a few moves on it. What an
action can do to the phases, to a recorded error, to OVF and to the scan position is a case analysis of the moves. -/

namespace Sys2Proof.Machine

/-! ### ENC -/

/-- What an action can make of ENC. -/
inductive EncMove (b : Build) (e : Enc) : Instr → Enc → Prop
  | stay {i : Instr} : EncMove b e i e
  | token {i : Instr} (row : EncRow) (w : List Byte) (hbusy : e.phase = .busy) :
    EncMove b e i (keepRest (tokenAction b e row w).1 (tokenAction b e row w).2)
  | push (x : Byte) (hbusy : e.phase = .busy) : EncMove b e (.encPush x) (pushByte b e x)
  | finish (data : Byte) (hbusy : e.phase = .busy) : EncMove b e (.encEnd data) (endInput b e)
  | start {i : Instr} (hstarts : startsEnc i = true) (hidle : e.phase ≠ .busy) : EncMove b e i (startEnc e)
  | reset : EncMove b e .reset Enc.reset

theorem encStartOp_move (b : Build) (e : Enc) {i : Instr} (h : startsEnc i = true) : EncMove b e i (encStartOp e) := by
  by_cases hbusy : e.phase = .busy
  · rw [encStartOp_busy hbusy]
    exact .stay
  · rw [encStartOp_start hbusy]
    exact .start h hbusy

theorem encMove_ite {b : Build} {e f : Enc} {i : Instr} {c : Prop} [Decidable c] (h : c → EncMove b e i f) :
    EncMove b e i (if c then f else e) := by
  split
  case isTrue hc => exact h hc
  case isFalse => exact .stay

theorem encMove_accepted {b : Build} {e f : Enc} {i : Instr} {c : Prop} [Decidable c] (h : c → EncMove b e i f) :
    EncMove b e i ((if c then some f else none).getD e) := by
  rw [apply_ite (Option.getD · e)]
  exact encMove_ite h

theorem encAfter_move (b : Build) (e : Enc) (i : Instr) : EncMove b e i (encAfter b e i) := by
  cases i with
  | eRun | eApair | eTriple | eSingle => exact encMove_accepted fun h => .token _ _ h.1
  | encPush x => exact encMove_accepted fun hbusy => .push x hbusy
  | encEnd data => exact encMove_accepted fun hbusy => .finish data hbusy
  | encStart => exact encStartOp_move b e rfl
  | wrreg => exact encMove_ite fun h => encStartOp_move b e (by simp [startsEnc, h])
  | reset => exact .reset
  | _ => exact .stay

/-! ### DEC -/

/-- What an action can make of DEC: the rows by themselves decode, or record an error. -/
inductive DecMove (b : Build) (d : Dec) : Instr → Dec → Prop
  | stay {i : Instr} : DecMove b d i d
  | decoded {i : Instr} (ys : List Byte) (hbusy : d.phase = .busy) :
    DecMove b d i { decOuts b d ys with pv := false }
  | error {i : Instr} (kind : ErrKind) (sel : BitVec 7) (hbusy : d.phase = .busy) :
    DecMove b d i (raiseDecodeError d kind d.pidx sel)
  | push (x : Scalar) (hbusy : d.phase = .busy) : DecMove b d (.decPush x) (pushScalar b d x)
  | finish (data : Scalar) (hrunning : decRunning d = true) : DecMove b d (.decEnd data) (endScalars b d)
  | start {i : Instr} (m : CMode) (hstarts : startsDec i = true) (hidle : decRunning d = false) :
    DecMove b d i (startDec d m)
  | reset : DecMove b d .reset Dec.reset

section

variable {b : Build} {d : Dec}

theorem decMove_ite {i : Instr} {f : Dec} {c : Prop} [Decidable c] (h : c → DecMove b d i f) :
    DecMove b d i (if c then f else d) := by
  split
  case isTrue hc => exact h hc
  case isFalse => exact .stay

theorem decMove_accepted {i : Instr} {f : Dec} {c : Prop} [Decidable c] (h : c → DecMove b d i f) :
    DecMove b d i ((if c then some f else none).getD d) := by
  rw [apply_ite (Option.getD · d)]
  exact decMove_ite h

theorem phase_of_pairSelects {x : Scalar} {sel : BitVec 7} (h : pairSelects b d x sel = true) : d.phase = .busy := by
  obtain ⟨hbusy, -⟩ := (pairSelects_iff b d x sel).mp h
  exact hbusy

theorem phase_of_loneSelects {sel : BitVec 7} (h : loneSelects d sel = true) : d.phase = .busy := by
  obtain ⟨hbusy, -⟩ := (loneSelects_iff d sel).mp h
  exact hbusy

/-- With nothing pending there is no scalar to drop after the output. -/
theorem decOuts_clear_pv (h : d.pv = false) (ys : List Byte) :
    { decOuts b d ys with pv := false } = decOuts b d ys := by
  have hpv := decOuts_pv b d ys
  rw [h] at hpv
  rw [← hpv]

theorem decStartOp_move (b : Build) (d : Dec) (m : CMode) {i : Instr} (h : startsDec i = true) :
    DecMove b d i (decStartOp d m) := by
  cases hrun : decRunning d with
  | true =>
    rw [decStartOp_running hrun]
    exact .stay
  | false =>
    rw [decStartOp_start hrun]
    exact .start m h hrun

theorem acceptScalar_move (h : decRunning d = true) (x : Scalar) : DecMove b d (.decPush x) (acceptScalar b d x) := by
  rcases (decRunning_iff d).mp h with hbusy | hdrain
  · rw [acceptScalar_busy hbusy]
    exact .push x hbusy
  · rw [acceptScalar_drain hdrain]
    exact .stay

theorem decAfter_move (b : Build) (d : Dec) (i : Instr) : DecMove b d i (decAfter b d i) := by
  cases i with
  | dSkipLb => exact decMove_accepted fun _ => .stay
  | dApair hasNext cls1 k x =>
    refine decMove_accepted fun h => ?_
    simp only [Bool.and_eq_true, beq_iff_eq, Bool.not_eq_true'] at h
    obtain ⟨⟨hbusy, hpv⟩, -⟩ := h
    have hmove := DecMove.decoded (b := b) (i := .dApair hasNext cls1 k x) (aunpackBytes x) hbusy
    rwa [decOuts_clear_pv hpv] at hmove
  | dTriple | dRun | dSs => exact decMove_accepted fun h => .decoded _ (phase_of_pairSelects h)
  | dLast => exact decMove_accepted fun h => .decoded [fromU8 d.p] (phase_of_loneSelects h)
  | dErrPair => exact decMove_accepted fun h => .error _ _ (phase_of_pairSelects (Bool.and_eq_true_iff.mp h).1)
  | dErrLone => exact decMove_accepted fun h => .error _ _ (phase_of_loneSelects (Bool.and_eq_true_iff.mp h).1)
  | decPush x => exact decMove_accepted fun h => acceptScalar_move h x
  | decEnd data => exact decMove_accepted fun h => .finish data h
  | decStart m reserved => exact decStartOp_move b d _ rfl
  | wrreg => exact decMove_ite fun h => decStartOp_move b d _ (by simp [startsDec, h])
  | reset => exact .reset
  | _ => exact .stay

/-- A push in BUSY discards the scalar, or counts it and then holds it, decodes, or records an error (R213). -/
inductive PushMove (b : Build) (d : Dec) (x : Scalar) : Dec → Prop
  | discard (hlb : cls b.lbSet x = 3#3) : PushMove b d x d
  | hold (hpv : d.pv = false) : PushMove b d x (holdScalar (countIdx b d) x (cls b.lbSet x) d.idx)
  | decoded (ys : List Byte) : PushMove b d x { decOuts b (countIdx b d) ys with pv := false }
  | error (sel : BitVec 7) : PushMove b d x (raiseDecodeError (countIdx b d) .pair d.pidx sel)

theorem pushScalar_move (b : Build) (d : Dec) (x : Scalar) : PushMove b d x (pushScalar b d x) := by
  by_cases hlb : cls b.lbSet x = 3#3
  · rw [pushScalar_lineBreak hlb]
    exact .discard hlb
  cases hpv : d.pv with
  | true =>
    rw [pushScalar_pending hlb hpv]
    cases hbytes : pairBytes (selWord 1#1 (cls b.lbSet x) (countIdx b d).pc) (countIdx b d).p x with
    | some ys => rw [classifyPair_of_some hbytes]; exact .decoded ys
    | none => rw [classifyPair_of_none hbytes]; exact .error _
  | false =>
    cases hx : inU12a b.lbSet x with
    | true =>
      rw [pushScalar_unpack hlb hpv hx, ← decOuts_clear_pv (d := countIdx b d) hpv]
      exact .decoded _
    | false =>
      rw [pushScalar_hold hlb hpv hx]
      exact .hold hpv

/-- END returns from the transaction, after what a pending scalar in BUSY gives (R214). -/
inductive EndMove (b : Build) (d : Dec) : Dec → Prop
  | nothing : EndMove b d (returnFromTransaction d)
  | last (ys : List Byte) (hbusy : d.phase = .busy) :
    EndMove b d (returnFromTransaction { decOuts b d ys with pv := false })
  | lone (sel : BitVec 7) (hbusy : d.phase = .busy) :
    EndMove b d (returnFromTransaction (raiseDecodeError d .lone d.pidx sel))

theorem endScalars_move (b : Build) (d : Dec) : EndMove b d (endScalars b d) := by
  by_cases hpending : d.phase = .busy ∧ d.pv = true
  · obtain ⟨hbusy, hpv⟩ := hpending
    by_cases hpc : d.pc = 1#3
    · rw [endScalars_last hbusy hpv hpc]
      exact .last [fromU8 d.p] hbusy
    · rw [endScalars_lone hbusy hpv hpc]
      exact .lone _ hbusy
  · rw [endScalars_none fun hbusy => Bool.eq_false_iff.mpr fun hpv => hpending ⟨hbusy, hpv⟩]
    exact .nothing

end

/-! ### Phases -/

theorem keepRest_tokenAction_phase (b : Build) (e : Enc) (row : EncRow) (w : List Byte) :
    (keepRest (tokenAction b e row w).1 (tokenAction b e row w).2).phase = e.phase := by
  obtain ⟨hkeep, -, -⟩ := keepRest_frame (tokenAction b e row w).1 (tokenAction b e row w).2
  obtain ⟨htoken, -, -, -⟩ := tokenAction_frame b e row w
  exact hkeep.trans htoken

theorem EncMove.phase {b : Build} {e f : Enc} {i : Instr} (h : EncMove b e i f) (hreset : i ≠ .reset)
    (hne : f.phase ≠ e.phase) :
    startsEnc i = true ∧ e.phase ≠ .busy ∧ f.phase = .busy ∨
      (∃ data, i = .encEnd data) ∧ e.phase = .busy ∧ f.phase = .done := by
  cases h with
  | stay => exact absurd rfl hne
  | token row w => exact absurd (keepRest_tokenAction_phase b e row w) hne
  | push x => exact absurd (pushByte_frame b e x).1 hne
  | finish data hbusy => exact .inr ⟨⟨data, rfl⟩, hbusy, rfl⟩
  | start hstarts hidle => exact .inl ⟨hstarts, hidle, rfl⟩
  | reset => exact absurd rfl hreset

theorem decRunning_eq_false_iff (d : Dec) : decRunning d = false ↔ d.phase = .idle ∨ d.phase = .done := by
  cases h : d.phase <;> simp [decRunning, h]

/-- A push leaves BUSY for DRAIN only, with the error. -/
theorem PushMove.phase {b : Build} {d f : Dec} {x : Scalar} (h : PushMove b d x f) (hne : f.phase ≠ d.phase) :
    f.phase = .drain ∧ f.err = true := by
  cases h with
  | discard | hold => exact absurd rfl hne
  | decoded ys => exact absurd (decOuts_phase b (countIdx b d) ys) hne
  | error sel => exact ⟨rfl, rfl⟩

theorem EndMove.phase {b : Build} {d f : Dec} (h : EndMove b d f) : f.phase = .done := by
  cases h <;> rfl

theorem DecMove.phase {b : Build} {d f : Dec} {i : Instr} (h : DecMove b d i f) (hreset : i ≠ .reset)
    (hne : f.phase ≠ d.phase) :
    startsDec i = true ∧ (d.phase = .idle ∨ d.phase = .done) ∧ f.phase = .busy ∨
      (∃ data, i = .decEnd data) ∧ (d.phase = .busy ∨ d.phase = .drain) ∧ f.phase = .done ∨
      d.phase = .busy ∧ f.phase = .drain ∧ f.err = true := by
  cases h with
  | stay => exact absurd rfl hne
  | decoded ys => exact absurd (decOuts_phase b d ys) hne
  | error kind sel hbusy => exact .inr (.inr ⟨hbusy, rfl, rfl⟩)
  | push x hbusy => exact .inr (.inr ⟨hbusy, (pushScalar_move b d x).phase hne⟩)
  | finish data hrun => exact .inr (.inl ⟨⟨data, rfl⟩, (decRunning_iff d).mp hrun, (endScalars_move b d).phase⟩)
  | start m hstarts hidle => exact .inl ⟨hstarts, (decRunning_eq_false_iff d).mp hidle, rfl⟩
  | reset => exact absurd rfl hreset

@[simp] theorem decOuts_cmode (b : Build) (d : Dec) (xs : List Byte) : (decOuts b d xs).cmode = d.cmode := by
  rw [decOuts_frame]

theorem PushMove.cmode {b : Build} {d f : Dec} {x : Scalar} (h : PushMove b d x f) : f.cmode = d.cmode := by
  cases h with
  | discard | hold | error => rfl
  | decoded ys => exact decOuts_cmode b (countIdx b d) ys

theorem EndMove.cmode {b : Build} {d f : Dec} (h : EndMove b d f) : f.cmode = d.cmode := by
  cases h with
  | nothing | lone => rfl
  | last ys => exact decOuts_cmode b d ys

theorem DecMove.cmode {b : Build} {d f : Dec} {i : Instr} (h : DecMove b d i f) (hreset : i ≠ .reset)
    (hne : f.cmode ≠ d.cmode) : startsDec i = true ∧ (d.phase = .idle ∨ d.phase = .done) := by
  cases h with
  | stay | error => exact absurd rfl hne
  | decoded ys => exact absurd (decOuts_cmode b d ys) hne
  | push x => exact absurd (pushScalar_move b d x).cmode hne
  | finish => exact absurd (endScalars_move b d).cmode hne
  | start m hstarts hidle => exact ⟨hstarts, (decRunning_eq_false_iff d).mp hidle⟩
  | reset => exact absurd rfl hreset

/-- Settles O53: the moves that write a phase or the mode. -/
theorem phasesChangeOnlyAsStated : Obligations.PhasesChangeOnlyAsStated := by
  intro i s t hexec hreset
  rw [exec_eq_next hexec]
  exact ⟨(encAfter_move _ _ i).phase hreset, (decAfter_move _ _ i).phase hreset, (decAfter_move _ _ i).cmode hreset⟩

/-! ### A recorded error -/

/-- Outside BUSY, END and START alone write a register of DEC. -/
theorem DecMove.of_notBusy {b : Build} {d f : Dec} {i : Instr} (h : DecMove b d i f) (hbusy : d.phase ≠ .busy)
    (hreset : i ≠ .reset) (hstart : ¬(startsDec i = true ∧ decRunning d = false)) :
    f = d ∨ f = returnFromTransaction d := by
  cases h with
  | stay => exact .inl rfl
  | decoded _ h => exact absurd h hbusy
  | error _ _ h => exact absurd h hbusy
  | push _ h => exact absurd h hbusy
  | finish => exact .inr (endScalars_none (fun h => absurd h hbusy) b)
  | start m hstarts hidle => exact absurd ⟨hstarts, hidle⟩ hstart
  | reset => exact absurd rfl hreset

/-- Settles O40: an error is recorded in DRAIN or DONE, where no push or row writes a register. -/
theorem decodeErrorStaysUntilStartOrReset : Obligations.DecodeErrorStaysUntilStartOrReset := by
  intro i s t herr hphase hexec hreset hstart
  have hbusy : s.dec.phase ≠ .busy := by rcases hphase with h | h <;> simp [h]
  have hidle : ¬(startsDec i = true ∧ decRunning s.dec = false) := by
    rintro ⟨hstarts, hrun⟩
    rcases hphase with h | h
    · simp [decRunning, h] at hrun
    · exact hstart ⟨hstarts, h⟩
  rw [exec_eq_next hexec]
  rcases (decAfter_move s.build s.dec i).of_notBusy hbusy hreset hidle with h | h <;> rw [h]
  · exact ⟨rfl, hphase⟩
  · exact ⟨rfl, .inr rfl⟩

end Sys2Proof.Machine
end

section
/-! SUPPORT. OVF and the counters (R31, R41, R43): what emitting does to the count and OVF of each unit, operation by
operation, and what that says of a whole move. -/

namespace Sys2Proof.Machine

/-! ### ENC -/

section

variable {b : Build} {e f g : Enc}

/-- `f` is `e` after `n` more scalars: the count is modulo `2 ^ CNT_W`, and OVF is set where it wrapped (R30, R31). -/
structure EncEmitted (b : Build) (e f : Enc) (n : Nat) : Prop where
  length : f.out.length = e.out.length + n
  outCount : f.outCount.toNat = (e.outCount.toNat + n) % 2 ^ b.cntW
  ovf : f.ovf = true ↔ e.ovf = true ∨ 2 ^ b.cntW ≤ e.outCount.toNat + n
  inCount : f.inCount = e.inCount

theorem EncEmitted.none (h : e.outCount.toNat < 2 ^ b.cntW) (hout : f.out = e.out := by rfl)
    (hcount : f.outCount = e.outCount := by rfl) (hovf : f.ovf = e.ovf := by rfl)
    (hin : f.inCount = e.inCount := by rfl) : EncEmitted b e f 0 :=
  ⟨by rw [hout]; rfl, by rw [hcount, Nat.add_zero, Nat.mod_eq_of_lt h], by
    rw [hovf, Nat.add_zero, or_iff_left (Nat.not_le.mpr h)], hin⟩

theorem EncEmitted.frame {n : Nat} (h : EncEmitted b e f n) (hout : g.out = f.out := by rfl)
    (hcount : g.outCount = f.outCount := by rfl) (hovf : g.ovf = f.ovf := by rfl)
    (hin : g.inCount = f.inCount := by rfl) : EncEmitted b e g n :=
  ⟨hout ▸ h.length, hcount ▸ h.outCount, hovf ▸ h.ovf, hin.trans h.inCount⟩

/-- The count of the stream, however often it has wrapped, is below `2 ^ CNT_W`. -/
theorem EncEmitted.outCount_lt {n : Nat} (h : EncEmitted b e f n) : f.outCount.toNat < 2 ^ b.cntW := by
  rw [h.outCount]
  exact Nat.mod_lt _ (Nat.two_pow_pos _)

theorem encEmit_emitted (hb : b.cntW ≤ 32) (h : e.outCount.toNat < 2 ^ b.cntW) (x : Scalar) :
    EncEmitted b e (encEmit b e x) 1 :=
  ⟨by simp, countUp_toNat hb _, by rw [encEmit_ovf, stickyOvf_eq_true, countUp_eq_zero_iff hb h], rfl⟩

theorem EncEmitted.trans {m n : Nat} (h : EncEmitted b e f m) (h' : EncEmitted b f g n) : EncEmitted b e g (m + n) := by
  refine ⟨?_, ?_, ?_, h'.inCount.trans h.inCount⟩
  · rw [h'.length, h.length, Nat.add_assoc]
  · rw [h'.outCount, h.outCount, Nat.mod_add_mod, Nat.add_assoc]
  · rw [h'.ovf, h.ovf, h.outCount]
    by_cases hwrap : 2 ^ b.cntW ≤ e.outCount.toNat + m
    · exact iff_of_true (.inl (.inr hwrap)) (.inr (by omega))
    · rw [Nat.mod_eq_of_lt (by omega), ← Nat.add_assoc]
      have hmono : 2 ^ b.cntW ≤ e.outCount.toNat + m → 2 ^ b.cntW ≤ e.outCount.toNat + m + n := by omega
      tauto

/-- An operation that emits some scalars and touches the counters no other way. -/
def EncEmits (b : Build) (e f : Enc) : Prop := ∃ n, EncEmitted b e f n

theorem encEmits_two (hb : b.cntW ≤ 32) (h : e.outCount.toNat < 2 ^ b.cntW) (x y : Scalar) :
    EncEmitted b e (encEmit b (encEmit b e x) y) 2 :=
  (encEmit_emitted hb h x).trans (encEmit_emitted hb (encEmit_emitted hb h x).outCount_lt y)

theorem closeRun_emits (hb : b.cntW ≤ 32) (h : e.outCount.toNat < 2 ^ b.cntW) : EncEmits b e (closeRun b e) :=
  ⟨2, (encEmits_two hb h _ _).frame⟩

theorem tokenAction_emits (hb : b.cntW ≤ 32) (h : e.outCount.toNat < 2 ^ b.cntW) (row : EncRow) (w : List Byte) :
    EncEmits b e (tokenAction b e row w).1 := by
  cases row with
  | run => exact ⟨0, .none h⟩
  | apair | single => exact ⟨1, encEmit_emitted hb h _⟩
  | triple => exact ⟨2, encEmits_two hb h _ _⟩

theorem keepRest_emits (h : EncEmits b e f) (rest : List Byte) : EncEmits b e (keepRest f rest) := by
  obtain ⟨n, h⟩ := h
  unfold keepRest
  split
  · exact ⟨n, h.frame⟩
  · exact ⟨n, h⟩

theorem decideWindow_emits (hb : b.cntW ≤ 32) (h : e.outCount.toNat < 2 ^ b.cntW) (w : List Byte) :
    EncEmits b e (decideWindow b e w).1 := by
  obtain ⟨row, -, hrow⟩ | hnone := decideWindow_cases b e w
  · rw [hrow]
    exact tokenAction_emits hb h row w
  · rw [hnone]
    exact ⟨0, .none h⟩

theorem flushWindow_emits (hb : b.cntW ≤ 32) (h : e.outCount.toNat < 2 ^ b.cntW) (n : Nat) (w : List Byte) :
    EncEmits b e (flushWindow b n e w) := by
  induction n generalizing e w with
  | zero => exact ⟨0, .none h⟩
  | succ n ih =>
    cases w with
    | nil => exact ⟨0, .none h⟩
    | cons x w =>
      obtain ⟨m, hfirst⟩ := decideWindow_emits hb h (x :: w)
      obtain ⟨k, hrest⟩ := ih hfirst.outCount_lt (decideWindow b e (x :: w)).2
      exact ⟨m + k, hfirst.trans hrest⟩

theorem pushByte_emits (hb : b.cntW ≤ 32) (h : e.outCount.toNat < 2 ^ b.cntW) (x : Byte) :
    EncEmits b (countIn b e) (pushByte b e x) := by
  have h' : (countIn b e).outCount.toNat < 2 ^ b.cntW := h
  cases hm : e.mode with
  | run =>
    rw [pushByte_run hm, pushRun]
    split
    · exact ⟨0, .none h'⟩
    · obtain ⟨n, hn⟩ := closeRun_emits hb h'
      exact ⟨n, hn.frame⟩
  | win =>
    rw [pushByte_win hm, pushWin]
    split
    · exact ⟨0, .none h'⟩
    split
    · exact ⟨0, .none h'⟩
    · exact keepRest_emits (decideWindow_emits hb h' _) _

theorem endInput_emits (hb : b.cntW ≤ 32) (h : e.outCount.toNat < 2 ^ b.cntW) : EncEmits b e (endInput b e) := by
  cases hm : e.mode with
  | run =>
    obtain ⟨n, hn⟩ := closeRun_emits hb h
    rw [endInput_run hm]
    exact ⟨n, hn.frame⟩
  | win =>
    obtain ⟨n, hn⟩ := flushWindow_emits hb h 2 (heldWindow e)
    rw [endInput_win hm]
    exact ⟨n, hn.frame⟩

/-- OVF is sticky, and set exactly where IN_COUNT or OUT_COUNT wraps (R31). -/
def EncWrapsRecorded (e f : Enc) : Prop :=
  f.ovf = true ↔ e.ovf = true ∨ f.inCount ≠ e.inCount ∧ f.inCount = 0#32 ∨
    f.outCount.toNat < e.outCount.toNat + (f.out.length - e.out.length)

/-- A count that has advanced by `n` modulo `p` is below where it would be without wrapping exactly if it wrapped. -/
theorem mod_lt_iff_wraps {c n p : Nat} (hp : 0 < p) : (c + n) % p < c + n ↔ p ≤ c + n := by
  constructor
  · intro h
    by_contra hlt
    rw [Nat.mod_eq_of_lt (by omega)] at h
    omega
  · exact fun h => lt_of_lt_of_le (Nat.mod_lt _ hp) h

theorem EncEmits.wrapsRecorded (h : EncEmits b e f) : EncWrapsRecorded e f := by
  obtain ⟨n, hlen, hcount, hovf, hin⟩ := h
  have hwrap := mod_lt_iff_wraps (c := e.outCount.toNat) (n := n) (Nat.two_pow_pos b.cntW)
  rw [EncWrapsRecorded, hlen, hcount, hovf, hin, Nat.add_sub_cancel_left, hwrap]
  tauto

/-- A counter that wraps has changed, as it held the greatest count. -/
theorem countUp_wraps_iff (hb : 1 ≤ b.cntW ∧ b.cntW ≤ 32) {c : HostWord} (hc : c.toNat < 2 ^ b.cntW) :
    countUp b.cntW c ≠ c ∧ countUp b.cntW c = 0#32 ↔ countUp b.cntW c = 0#32 := by
  refine and_iff_right_of_imp fun hzero hsame => ?_
  have hgreatest := (countUp_eq_zero_iff hb.2 hc).mp hzero
  have htwo : 2 ^ 1 ≤ 2 ^ b.cntW := Nat.pow_le_pow_right (by decide) hb.1
  have hc0 : c = 0#32 := hsame.symm.trans hzero
  rw [hc0, BitVec.toNat_ofNat] at hgreatest
  omega

theorem EncEmits.wrapsRecorded_countIn (hb : 1 ≤ b.cntW ∧ b.cntW ≤ 32) (hlt : e.inCount.toNat < 2 ^ b.cntW)
    (h : EncEmits b (countIn b e) f) : EncWrapsRecorded e f := by
  obtain ⟨n, hlen, hcount, hovf, hin⟩ := h
  have hwrap := mod_lt_iff_wraps (c := e.outCount.toNat) (n := n) (Nat.two_pow_pos b.cntW)
  rw [EncWrapsRecorded, hlen, hcount, hovf, hin, countIn_out, countIn_outCount, countIn_inCount, countIn_ovf,
    stickyOvf_eq_true, Nat.add_sub_cancel_left, hwrap, countUp_wraps_iff hb hlt, or_assoc]

theorem EncMove.wrapsRecorded {i : Instr} (hb : 1 ≤ b.cntW ∧ b.cntW ≤ 32) (hinv : EncStreamOk b e)
    (hreset : i ≠ .reset) (hstart : startsEnc i = false ∨ e.phase = .busy) (h : EncMove b e i f) :
    EncWrapsRecorded e f := by
  have hlt : e.outCount.toNat < 2 ^ b.cntW := by
    rw [hinv.outCount_eq]
    exact Nat.mod_lt _ (Nat.two_pow_pos _)
  cases h with
  | stay => exact EncEmits.wrapsRecorded (b := b) ⟨0, .none hlt⟩
  | token row w => exact (keepRest_emits (tokenAction_emits hb.2 hlt row w) _).wrapsRecorded
  | push x => exact (pushByte_emits hb.2 hlt x).wrapsRecorded_countIn hb hinv.inCount_lt
  | finish => exact (endInput_emits hb.2 hlt).wrapsRecorded
  | start hstarts hidle =>
    rcases hstart with h | h
    · simp [h] at hstarts
    · exact absurd h hidle
  | reset => exact absurd rfl hreset

end

/-! ### DEC -/

section

variable {b : Build} {d f g : Dec}

/-- OVF is sticky, set where IDX wraps, and in EMIT mode set exactly where IDX or OUT_COUNT wraps (R41). -/
def DecWrapsRecorded (d f : Dec) : Prop :=
  (d.ovf = true → f.ovf = true) ∧ (f.idx ≠ d.idx → f.idx = 0#32 → f.ovf = true) ∧
    (d.cmode = .emit → (f.ovf = true ↔ d.ovf = true ∨ f.idx ≠ d.idx ∧ f.idx = 0#32 ∨
      f.outCount.toNat < d.outCount.toNat + (f.out.length - d.out.length)))

theorem DecWrapsRecorded.frame (h : DecWrapsRecorded d f) (hidx : g.idx = f.idx := by rfl)
    (hcount : g.outCount = f.outCount := by rfl) (hovf : g.ovf = f.ovf := by rfl) (hout : g.out = f.out := by rfl) :
    DecWrapsRecorded d g := by
  unfold DecWrapsRecorded
  rw [hidx, hcount, hovf, hout]
  exact h

theorem decOuts_outCount_ovf (hb : buildValid b = true) (h : d.outCount.toNat < 2 ^ b.cntW) (ys : List Byte) :
    (decOuts b d ys).outCount.toNat = (d.outCount.toNat + ys.length) % 2 ^ b.cntW ∧
      ((decOuts b d ys).ovf = true ↔ d.ovf = true ∨ 2 ^ b.cntW ≤ d.outCount.toNat + ys.length) := by
  obtain ⟨-, hle, -⟩ := (buildValid_iff b).mp hb
  have hlt : (d.outCount.toNat + ys.length) % 2 ^ b.cntW < 2 ^ 32 :=
    lt_of_lt_of_le (Nat.mod_lt _ (Nat.two_pow_pos _)) (Nat.pow_le_pow_right (by decide) hle)
  rw [decodedBytesAreEmittedAndCounted b d ys hb h]
  exact ⟨by rw [BitVec.toNat_ofNat, Nat.mod_eq_of_lt hlt], by simp⟩

theorem decOuts_wrapsRecorded (hb : buildValid b = true) (h : d.outCount.toNat < 2 ^ b.cntW) (ys : List Byte) :
    DecWrapsRecorded d (decOuts b d ys) := by
  obtain ⟨hcount, hovf⟩ := decOuts_outCount_ovf hb h ys
  have hwrap := mod_lt_iff_wraps (c := d.outCount.toNat) (n := ys.length) (Nat.two_pow_pos b.cntW)
  refine ⟨fun ho => hovf.mpr (.inl ho), fun hne => absurd (decOuts_idx b d ys) hne, fun hm => ?_⟩
  rw [hovf, hcount, decOuts_idx, decOuts_out_emit b d ys hm, List.length_append, Nat.add_sub_cancel_left, hwrap]
  tauto

theorem decOuts_countIdx_wrapsRecorded (hb : buildValid b = true) (hidx : d.idx.toNat < 2 ^ b.cntW)
    (h : d.outCount.toNat < 2 ^ b.cntW) (ys : List Byte) : DecWrapsRecorded d (decOuts b (countIdx b d) ys) := by
  obtain ⟨hge, hle, -⟩ := (buildValid_iff b).mp hb
  obtain ⟨hcount, hovf⟩ := decOuts_outCount_ovf (d := countIdx b d) hb h ys
  have hwrap := mod_lt_iff_wraps (c := d.outCount.toNat) (n := ys.length) (Nat.two_pow_pos b.cntW)
  rw [countIdx_ovf, stickyOvf_eq_true] at hovf
  refine ⟨fun ho => hovf.mpr (.inl (.inl ho)), fun _ hzero => hovf.mpr (.inl (.inr ?_)), fun hm => ?_⟩
  · rwa [decOuts_idx] at hzero
  · rw [hovf, hcount, decOuts_idx, decOuts_out_emit b (countIdx b d) ys hm, countIdx_out, countIdx_idx,
      countIdx_outCount, List.length_append, Nat.add_sub_cancel_left, hwrap, countUp_wraps_iff ⟨hge, hle⟩ hidx,
      or_assoc]

theorem PushMove.wrapsRecorded {x : Scalar} (hb : buildValid b = true) (hinv : DecStreamOk b d) (h : PushMove b d x f) :
    DecWrapsRecorded d f := by
  have hcounted (ys : List Byte) := decOuts_countIdx_wrapsRecorded hb hinv.idx_lt hinv.outCount_lt ys
  cases h with
  | discard => exact decOuts_wrapsRecorded hb hinv.outCount_lt []
  | hold | error => exact (hcounted []).frame
  | decoded ys => exact (hcounted ys).frame

theorem EndMove.wrapsRecorded (hb : buildValid b = true) (hinv : DecStreamOk b d) (h : EndMove b d f) :
    DecWrapsRecorded d f := by
  have hemitted (ys : List Byte) := decOuts_wrapsRecorded hb hinv.outCount_lt ys
  cases h with
  | nothing | lone => exact (hemitted []).frame
  | last ys => exact (hemitted ys).frame

theorem DecMove.wrapsRecorded {i : Instr} (hb : buildValid b = true) (hinv : DecStreamOk b d) (hreset : i ≠ .reset)
    (hstart : startsDec i = false ∨ d.phase = .busy ∨ d.phase = .drain) (h : DecMove b d i f) :
    DecWrapsRecorded d f := by
  have hemitted (ys : List Byte) := decOuts_wrapsRecorded hb hinv.outCount_lt ys
  cases h with
  | stay => exact hemitted []
  | error => exact (hemitted []).frame
  | decoded ys => exact (hemitted ys).frame
  | push x => exact (pushScalar_move b d x).wrapsRecorded hb hinv
  | finish => exact (endScalars_move b d).wrapsRecorded hb hinv
  | start m hstarts hidle =>
    rcases hstart with h | h
    · simp [h] at hstarts
    · simp [(decRunning_iff d).mpr h] at hidle
  | reset => exact absurd rfl hreset

end

/-- Settles O55: no move but START and RESET writes a counter or OVF other than by counting. -/
theorem overflowRecordsEveryWrap : Obligations.OverflowRecordsEveryWrap := by
  intro i s t hinv hexec hreset
  obtain ⟨hbuild, henc, hdec⟩ := hinv
  obtain ⟨hge, hle, -⟩ := (buildValid_iff _).mp hbuild
  obtain ⟨-, hencStream⟩ := encInv_iff.mp henc
  obtain ⟨-, -, hdecStream⟩ := decInv_iff.mp hdec
  rw [exec_eq_next hexec]
  exact ⟨fun hstart => (encAfter_move _ _ i).wrapsRecorded ⟨hge, hle⟩ hencStream hreset hstart,
    fun hstart => (decAfter_move _ _ i).wrapsRecorded hbuild hdecStream hreset hstart⟩

end Sys2Proof.Machine
end

section
/-! SUPPORT. The scan positions (R23): a push that is held adds one to the count of its unit and one to what the unit
holds. -/

namespace Sys2Proof.Machine

/-- Counting one more and holding one more leaves the difference where it was, modulo `2 ^ k`. -/
theorem countUp_sub_held {k : Nat} (hk : k ≤ 32) (c : HostWord) {n : Nat} (hn : n < 2 ^ 32 - 1) :
    (countUp k c - BitVec.ofNat 32 (n + 1)).toNat % 2 ^ k = (c - BitVec.ofNat 32 n).toNat % 2 ^ k := by
  have hdvd : 2 ^ k ∣ 2 ^ 32 := pow_dvd_pow 2 hk
  have hone : 2 ^ 32 - (n + 1) + (c.toNat + 1) = 2 ^ 32 - n + c.toNat := by omega
  rw [BitVec.toNat_sub, BitVec.toNat_sub, BitVec.toNat_ofNat, BitVec.toNat_ofNat, countUp_toNat hk,
    Nat.mod_mod_of_dvd _ hdvd, Nat.mod_mod_of_dvd _ hdvd, Nat.add_mod_mod, Nat.mod_eq_of_lt (by omega : n + 1 < 2 ^ 32),
    Nat.mod_eq_of_lt (by omega : n < 2 ^ 32), hone]

/-! ### ENC -/

section

variable {b : Build} {e f : Enc}

theorem encHeldCount_run (h : e.mode = .run) : encHeldCount e = e.rc.toNat := if_pos h

theorem encHeldCount_win (h : e.mode = .win) : encHeldCount e = e.wcnt.toNat := if_neg (by simp [h])

theorem encHeldCount_lt (e : Enc) : encHeldCount e < 2 ^ 32 - 1 := by
  have hrc := e.rc.isLt
  have hwcnt := e.wcnt.isLt
  unfold encHeldCount
  split <;> omega

theorem encScanPos_of_held (hb : b.cntW ≤ 32) (hin : f.inCount = countUp b.cntW e.inCount)
    (hheld : encHeldCount f = encHeldCount e + 1) : encScanPos b f = encScanPos b e := by
  rw [encScanPos, encScanPos, hin, hheld, countUp_sub_held hb _ (encHeldCount_lt e)]

/-- A full window that is decided without output opens a run of its three bytes. -/
theorem decideFull_held (hwin : e.mode = .win) (hfull : e.wcnt = 2#2) (x : Byte)
    (hout : (keepRest (decideWindow b e [e.w0, e.w1, x]).1 (decideWindow b e [e.w0, e.w1, x]).2).out = e.out) :
    encHeldCount (keepRest (decideWindow b e [e.w0, e.w1, x]).1 (decideWindow b e [e.w0, e.w1, x]).2) =
      encHeldCount e + 1 := by
  obtain ⟨-, -, hkept⟩ :=
    keepRest_frame (decideWindow b e [e.w0, e.w1, x]).1 (decideWindow b e [e.w0, e.w1, x]).2
  rw [hkept] at hout
  rw [decideWindow_three] at hout ⊢
  split_ifs at hout ⊢ with hrun hpair
  · rw [keepRest_run rfl, encHeldCount_run rfl, encHeldCount_win hwin, hfull]
    rfl
  · simp at hout
  · simp at hout

theorem pushByte_held (hc : EncControlOk e) (x : Byte) (hout : (pushByte b e x).out = e.out) :
    encHeldCount (pushByte b e x) = encHeldCount e + 1 := by
  cases hm : e.mode with
  | run =>
    rw [pushByte_run hm, pushRun] at hout ⊢
    split_ifs at hout ⊢ with hgrow
    · obtain ⟨-, hlt⟩ := hgrow
      rw [encHeldCount_run (e := { countIn b e with rc := (countIn b e).rc + 1#12 }) hm, encHeldCount_run hm]
      simp only [countIn_rc] at hlt ⊢
      bv_omega
    · simp [closeRun] at hout
  | win =>
    have hle := hc.win_mode hm
    rw [pushByte_win hm] at hout ⊢
    by_cases h0 : e.wcnt = 0#2
    · rw [pushWin_zero (e := countIn b e) h0, encHeldCount_win (e := { countIn b e with w0 := x, wcnt := 1#2 }) hm,
        encHeldCount_win hm, h0]
      rfl
    by_cases h1 : e.wcnt = 1#2
    · rw [pushWin_one (e := countIn b e) h1, encHeldCount_win (e := { countIn b e with w1 := x, wcnt := 2#2 }) hm,
        encHeldCount_win hm, h1]
      rfl
    · have h2 : e.wcnt = 2#2 := by bv_omega
      rw [pushWin_full (e := countIn b e) h2] at hout ⊢
      exact decideFull_held (e := countIn b e) hm h2 x hout

end

/-! ### DEC -/

section

variable {b : Build} {d f : Dec}

theorem decScanPos_of_held (hb : b.cntW ≤ 32) (hidx : f.idx = countUp b.cntW d.idx) (hpv : d.pv = false)
    (hpv' : f.pv = true) : decScanPos b f = decScanPos b d := by
  rw [decScanPos, decScanPos, hidx, hpv, hpv']
  exact congrArg _ (countUp_sub_held hb d.idx (n := 0) (by decide))

/-- A push after which a scalar is pending discarded a line break or holds the scalar. -/
theorem PushMove.scanPos {x : Scalar} (hb : b.cntW ≤ 32) (h : PushMove b d x f) (hpv' : f.pv = true) :
    decScanPos b f = decScanPos b d := by
  cases h with
  | discard => rfl
  | hold hpv => exact decScanPos_of_held hb rfl hpv rfl
  | decoded | error => cases hpv'

theorem exec_decPush_notBusy {s : State} (h : s.dec.phase ≠ .busy) (x : Scalar) :
    ∃ r, exec (.decPush x) s = answer s r := by
  by_cases hdrain : s.dec.phase = .drain
  · exact ⟨.accepted, exec_decPush_drain hdrain x⟩
  · exact ⟨.notAccepted, (if_neg h).trans (if_neg hdrain)⟩

end

/-- Settles O56: the bytes held grow by the byte counted, and so does the pending scalar. -/
theorem holdingKeepsTheScanPosition : Obligations.HoldingKeepsTheScanPosition := by
  intro s t hinv
  have hb := cntW_le_of_inv hinv
  obtain ⟨hc, -⟩ := encInv_iff.mp (encInv_of_inv hinv)
  refine ⟨fun x hexec hout => ?enc, fun x hexec hheld => ?dec⟩
  case enc =>
    by_cases hbusy : s.enc.phase = .busy
    · rw [exec_encPush_busy hbusy] at hexec
      obtain rfl := Host.Outcome.next.inj hexec
      exact encScanPos_of_held hb (pushByte_frame _ _ x).2 (pushByte_held hc x hout)
    · obtain rfl : _ = t := Host.Outcome.next.inj ((if_neg hbusy).symm.trans hexec)
      rfl
  case dec =>
    by_cases hbusy : s.dec.phase = .busy
    · rw [exec_decPush_busy hbusy] at hexec
      obtain rfl := Host.Outcome.next.inj hexec
      rcases hheld with hpv | hlb | hidle
      · exact (pushScalar_move s.build s.dec x).scanPos hb hpv
      · exact congrArg (decScanPos s.build) (pushScalar_lineBreak hlb s.dec)
      · exact absurd hbusy hidle
    · obtain ⟨r, hanswer⟩ := exec_decPush_notBusy hbusy x
      rw [hanswer] at hexec
      obtain rfl := Host.Outcome.next.inj hexec
      rfl

end Sys2Proof.Machine
end

section
/-! SUPPORT. Two machines in lockstep. A relation between two ENC units, or two DEC units, that each single update
keeps, and that tells the registers the rules read, is kept by every action. Both statements about pairs of states use
this. -/

namespace Sys2Proof.Machine

section

variable {α : Type} {R : α → α → Prop} {x y : α} {o p : Option α}

theorem rel_getD (h : Option.Rel R o p) (hxy : R x y) : R (o.getD x) (p.getD y) := by
  cases h with
  | some h => exact h
  | none => exact hxy

theorem rel_isSome (h : Option.Rel R o p) : o.isSome = p.isSome := by
  cases h <;> rfl

theorem rel_ite {c c' : Prop} [Decidable c] [Decidable c'] (hc : c ↔ c') (h : c → R x y) :
    Option.Rel R (if c then some x else none) (if c' then some y else none) := by
  by_cases hx : c
  · rw [if_pos hx, if_pos (hc.mp hx)]
    exact .some (h hx)
  · rw [if_neg hx, if_neg (mt hc.mpr hx)]
    exact .none

end

/-! ### ENC -/

/-- `R` relates ENC units of the builds `b` and `c` that the rules cannot tell apart, and every update of R163-R169 and
R242 keeps it. -/
structure EncSim (b c : Build) (R : Enc → Enc → Prop) : Prop where
  refl (e : Enc) : R e e
  phase {e f : Enc} : R e f → e.phase = f.phase
  mode {e f : Enc} : R e f → e.mode = f.mode
  wcnt {e f : Enc} : R e f → e.wcnt = f.wcnt
  w0 {e f : Enc} : R e f → 1 ≤ e.wcnt.toNat → e.w0 = f.w0
  w1 {e f : Enc} : R e f → 2 ≤ e.wcnt.toNat → e.w1 = f.w1
  run {e f : Enc} : R e f → e.mode = .run → e.rb = f.rb ∧ e.rc = f.rc
  emit {e f : Enc} (x : Scalar) : R e f → R (encEmit b e x) (encEmit c f x)
  countIn {e f : Enc} : R e f → R (countIn b e) (countIn c f)
  openRun {e f : Enc} (x : Byte) : R e f →
    R { e with mode := .run, rb := x, rc := 3#12, wcnt := 0#2 }
      { f with mode := .run, rb := x, rc := 3#12, wcnt := 0#2 }
  growRun {e f : Enc} : R e f → e.mode = .run → R { e with rc := e.rc + 1#12 } { f with rc := f.rc + 1#12 }
  leaveRun {e f : Enc} : R e f → R { e with mode := .win } { f with mode := .win }
  holdNone {e f : Enc} : R e f → R { e with wcnt := 0#2 } { f with wcnt := 0#2 }
  holdOne {e f : Enc} (x : Byte) : R e f → R { e with w0 := x, wcnt := 1#2 } { f with w0 := x, wcnt := 1#2 }
  holdTwo {e f : Enc} (x : Byte) : R e f → e.wcnt = 1#2 →
    R { e with w1 := x, wcnt := 2#2 } { f with w1 := x, wcnt := 2#2 }
  finish {e f : Enc} : R e f → R { e with phase := .done } { f with phase := .done }
  start {e f : Enc} : R e f → R (startEnc e) (startEnc f)

/-- Bit 4 of ESEL, HAS2, is clear in the row E.SINGLE (R83). -/
theorem not_has2_of_encRow_single : ∀ {x : BitVec 5}, encRow x = some .single → x.getLsbD 4 = false := by decide

/-- The row a window selects leaves at most one of its bytes over. -/
theorem tokenAction_rest_length_le {row : EncRow} {w : List Byte} (hrow : encRow (esel w) = some row)
    (hw : w.length ≤ 3) (b : Build) (e : Enc) : (tokenAction b e row w).2.length ≤ 1 := by
  cases row with
  | run | triple => exact Nat.zero_le 1
  | apair =>
    simp only [tokenAction, emitApair, List.length_drop]
    omega
  | single =>
    have hshort := not_has2_of_encRow_single hrow
    rw [esel_getLsbD_four, decide_eq_false_iff_not] at hshort
    simp only [tokenAction, emitSingle, List.length_drop]
    omega

section

variable {b c : Build} {R : Enc → Enc → Prop} {e f : Enc}

theorem EncSim.closeRun (sim : EncSim b c R) (h : R e f) (hrun : e.mode = .run) : R (closeRun b e) (closeRun c f) := by
  obtain ⟨hrb, hrc⟩ := sim.run h hrun
  unfold Machine.closeRun
  rw [← hrb, ← hrc]
  exact sim.leaveRun (sim.emit _ (sim.emit _ h))

theorem EncSim.tokenAction (sim : EncSim b c R) (h : R e f) (row : EncRow) (w : List Byte) :
    R (tokenAction b e row w).1 (tokenAction c f row w).1 ∧
      (Machine.tokenAction b e row w).2 = (Machine.tokenAction c f row w).2 := by
  cases row with
  | run => exact ⟨sim.openRun _ h, rfl⟩
  | apair | single => exact ⟨sim.emit _ h, rfl⟩
  | triple => exact ⟨sim.emit _ (sim.emit _ h), rfl⟩

theorem EncSim.keepRest (sim : EncSim b c R) (h : R e f) {rest : List Byte} (hrest : rest.length ≤ 1) :
    R (keepRest e rest) (keepRest f rest) := by
  have hmode := sim.mode h
  cases hm : e.mode with
  | run =>
    rw [keepRest_run hm, keepRest_run (hmode.symm.trans hm)]
    exact h
  | win =>
    have hm' := hmode.symm.trans hm
    match rest, hrest with
    | [], _ =>
      rw [keepRest_nil hm, keepRest_nil hm']
      exact sim.holdNone h
    | [x], _ =>
      rw [keepRest_one hm, keepRest_one hm']
      exact sim.holdOne x h

/-- A selected row, with the bytes it leaves over kept. -/
theorem EncSim.token (sim : EncSim b c R) (h : R e f) {row : EncRow} {w : List Byte}
    (hrow : encRow (esel w) = some row) (hw : w.length ≤ 3) :
    R (Machine.keepRest (Machine.tokenAction b e row w).1 (Machine.tokenAction b e row w).2)
      (Machine.keepRest (Machine.tokenAction c f row w).1 (Machine.tokenAction c f row w).2) := by
  obtain ⟨hunit, hrest⟩ := sim.tokenAction h row w
  rw [← hrest]
  exact sim.keepRest hunit (tokenAction_rest_length_le hrow hw b e)

theorem EncSim.decideWindow (sim : EncSim b c R) (h : R e f) (w : List Byte) :
    R (decideWindow b e w).1 (decideWindow c f w).1 ∧
      (Machine.decideWindow b e w).2 = (Machine.decideWindow c f w).2 := by
  unfold Machine.decideWindow
  cases encRow (esel w) with
  | some row => exact sim.tokenAction h row w
  | none => exact ⟨h, rfl⟩

theorem EncSim.decideFull (sim : EncSim b c R) (h : R e f) {w : List Byte} (hw : w.length ≤ 3) :
    R (Machine.keepRest (Machine.decideWindow b e w).1 (Machine.decideWindow b e w).2)
      (Machine.keepRest (Machine.decideWindow c f w).1 (Machine.decideWindow c f w).2) := by
  unfold Machine.decideWindow
  cases hrow : encRow (esel w) with
  | some row => exact sim.token h hrow hw
  | none => exact sim.keepRest h (Nat.zero_le 1)

theorem EncSim.flushWindow (sim : EncSim b c R) (h : R e f) (n : Nat) (w : List Byte) :
    R (flushWindow b n e w) (flushWindow c n f w) := by
  induction n generalizing e f w with
  | zero => exact h
  | succ n ih =>
    cases w with
    | nil => exact h
    | cons x w =>
      obtain ⟨hunit, hrest⟩ := sim.decideWindow h (x :: w)
      rw [flushWindow_cons, flushWindow_cons, ← hrest]
      exact ih hunit _

theorem EncSim.heldWindow (sim : EncSim b c R) (h : R e f) : heldWindow e = heldWindow f := by
  have hw0 := sim.w0 h
  have hw1 := sim.w1 h
  unfold Machine.heldWindow
  rw [← sim.wcnt h]
  generalize e.wcnt.toNat = n at hw0 hw1
  match n with
  | 0 => rfl
  | 1 => simp [hw0 (le_refl 1)]
  | n + 2 => rw [hw0 (by omega), hw1 (by omega)]

theorem EncSim.pushRun (sim : EncSim b c R) (h : R e f) (hrun : e.mode = .run) (x : Byte) :
    R (pushRun b e x) (pushRun c f x) := by
  obtain ⟨hrb, hrc⟩ := sim.run h hrun
  have hgrow := sim.growRun h hrun
  unfold Machine.pushRun
  rw [← hrb, ← hrc] at hgrow ⊢
  split
  · exact hgrow
  · exact sim.holdOne x (sim.closeRun h hrun)

theorem EncSim.pushWin (sim : EncSim b c R) (h : R e f) (x : Byte) : R (pushWin b e x) (pushWin c f x) := by
  have hw0 := sim.w0 h
  have hw1 := sim.w1 h
  unfold Machine.pushWin
  rw [← sim.wcnt h]
  split_ifs with h0 h1
  · exact sim.holdOne x h
  · exact sim.holdTwo x h h1
  · rw [← hw0 (by bv_omega), ← hw1 (by bv_omega)]
    exact sim.decideFull h (by simp)

theorem EncSim.pushByte (sim : EncSim b c R) (h : R e f) (x : Byte) : R (pushByte b e x) (pushByte c f x) := by
  have hmode := sim.mode h
  have hcounted := sim.countIn h
  cases hm : e.mode with
  | run =>
    rw [pushByte_run hm, pushByte_run (hmode.symm.trans hm)]
    exact sim.pushRun hcounted hm x
  | win =>
    rw [pushByte_win hm, pushByte_win (hmode.symm.trans hm)]
    exact sim.pushWin hcounted x

theorem EncSim.endInput (sim : EncSim b c R) (h : R e f) : R (endInput b e) (endInput c f) := by
  have hmode := sim.mode h
  cases hm : e.mode with
  | run =>
    rw [endInput_run hm, endInput_run (hmode.symm.trans hm)]
    exact sim.finish (sim.holdNone (sim.closeRun h hm))
  | win =>
    rw [endInput_win hm, endInput_win (hmode.symm.trans hm), ← sim.heldWindow h]
    exact sim.finish (sim.holdNone (sim.flushWindow h 2 _))

theorem EncSim.encStartOp (sim : EncSim b c R) (h : R e f) : R (encStartOp e) (encStartOp f) := by
  unfold Machine.encStartOp
  rw [← sim.phase h]
  split
  · exact h
  · exact sim.start h

theorem EncSim.tokenOn (sim : EncSim b c R) (h : R e f) (row : EncRow) {w : List Byte} (hw : w.length ≤ 3) :
    Option.Rel R (tokenOn b e row w) (tokenOn c f row w) :=
  rel_ite (by rw [sim.phase h, sim.mode h]) fun ⟨_, _, hrow⟩ => sim.token h hrow hw

/-- Every action keeps the relation, and both units accept it or neither. -/
theorem EncSim.encAction (sim : EncSim b c R) (h : R e f) (i : Instr) :
    Option.Rel R (encAction b e i) (encAction c f i) := by
  have hbusy : e.phase = .busy ↔ f.phase = .busy := by rw [sim.phase h]
  cases i with
  | eRun | eTriple => exact sim.tokenOn h _ (by simp)
  | eApair w0 w1 w2 => exact sim.tokenOn h _ (by cases w2 <;> simp)
  | eSingle w0 w1 => exact sim.tokenOn h _ (by cases w1 <;> simp)
  | encPush x => exact rel_ite hbusy fun _ => sim.pushByte h x
  | encEnd data => exact rel_ite hbusy fun _ => sim.endInput h
  | encStart => exact .some (sim.encStartOp h)
  | wrreg n v =>
    refine .some ?_
    split
    · exact sim.encStartOp h
    · exact h
  | reset => exact .some (sim.refl Enc.reset)
  | _ => exact .some h

end

/-! ### DEC -/

/-- `R` relates DEC units of the builds `b` and `c`, of one LB_SET, that the rules cannot tell apart, and every update
of R202-R214 and R243 keeps it. -/
structure DecSim (b c : Build) (R : Dec → Dec → Prop) : Prop where
  lbSet : b.lbSet = c.lbSet
  refl (d : Dec) : R d d
  phase {d f : Dec} : R d f → d.phase = f.phase
  pv {d f : Dec} : R d f → d.pv = f.pv
  pending {d f : Dec} : R d f → d.pv = true → d.p = f.p ∧ d.pc = f.pc
  out {d f : Dec} (x : Byte) : R d f → R (decOut b d x) (decOut c f x)
  countIdx {d f : Dec} : R d f → R (countIdx b d) (countIdx c f)
  hold {d f : Dec} (x : Scalar) (k : ClassCode) : R d f →
    R (holdScalar (Machine.countIdx b d) x k d.idx) (holdScalar (Machine.countIdx c f) x k f.idx)
  consume {d f : Dec} : R d f → R { d with pv := false } { f with pv := false }
  raise {d f : Dec} (kind : ErrKind) (sel : BitVec 7) : R d f → d.pv = true →
    R (raiseDecodeError d kind d.pidx sel) (raiseDecodeError f kind f.pidx sel)
  finish {d f : Dec} : R d f → R (returnFromTransaction d) (returnFromTransaction f)
  start {d f : Dec} (m : CMode) : R d f → R (startDec d m) (startDec f m)

section

variable {b c : Build} {R : Dec → Dec → Prop} {d f : Dec}

theorem DecSim.outs (sim : DecSim b c R) (h : R d f) (ys : List Byte) : R (decOuts b d ys) (decOuts c f ys) := by
  induction ys generalizing d f with
  | nil => exact h
  | cons y ys ih => exact ih (sim.out y h)

/-- The bytes that the pending scalar stands for are put out, and it is dropped. -/
theorem DecSim.consumed (sim : DecSim b c R) (h : R d f) (hpv : d.pv = true) (ys : Scalar → List Byte) :
    R { decOuts b d (ys d.p) with pv := false } { decOuts c f (ys f.p) with pv := false } := by
  obtain ⟨hp, -⟩ := sim.pending h hpv
  rw [← hp]
  exact sim.consume (sim.outs h (ys d.p))

theorem DecSim.outTriple (sim : DecSim b c R) (h : R d f) (hpv : d.pv = true) (x : Scalar) :
    R (outTriple b d x) (outTriple c f x) :=
  sim.consumed h hpv fun p =>
    [(tunpack (fromU12 p) (fromU12 x)).1, (tunpack (fromU12 p) (fromU12 x)).2.1,
      (tunpack (fromU12 p) (fromU12 x)).2.2]

theorem DecSim.outRun (sim : DecSim b c R) (h : R d f) (hpv : d.pv = true) (x : Scalar) :
    R (outRun b d x) (outRun c f x) :=
  sim.consumed h hpv fun p => List.replicate (fromU12 x).toNat (fromU8 p)

theorem DecSim.outSs (sim : DecSim b c R) (h : R d f) (hpv : d.pv = true) (x : Scalar) :
    R (outSs b d x) (outSs c f x) :=
  sim.consumed h hpv fun p => [fromU8 p, fromU8 x]

theorem DecSim.outLast (sim : DecSim b c R) (h : R d f) (hpv : d.pv = true) : R (outLast b d) (outLast c f) :=
  sim.consumed h hpv fun p => [fromU8 p]

theorem DecSim.classifyPair (sim : DecSim b c R) (h : R d f) (hpv : d.pv = true) (x : Scalar) (k : ClassCode) :
    R (classifyPair b d x k) (classifyPair c f x k) := by
  obtain ⟨-, hpc⟩ := sim.pending h hpv
  unfold Machine.classifyPair
  rw [← hpc]
  extract_lets sel
  split_ifs
  · exact sim.outTriple h hpv x
  · exact sim.outRun h hpv x
  · exact sim.outSs h hpv x
  · exact sim.raise _ _ h hpv

theorem DecSim.pushScalar (sim : DecSim b c R) (h : R d f) (x : Scalar) : R (pushScalar b d x) (pushScalar c f x) := by
  have hpv := sim.pv h
  by_cases hlb : cls b.lbSet x = 3#3
  · rw [pushScalar_lineBreak hlb, pushScalar_lineBreak (sim.lbSet ▸ hlb)]
    exact h
  have hlb' : cls c.lbSet x ≠ 3#3 := sim.lbSet ▸ hlb
  cases hd : d.pv with
  | true =>
    rw [pushScalar_pending hlb hd, pushScalar_pending hlb' (hpv.symm.trans hd), ← sim.lbSet]
    exact sim.classifyPair (sim.countIdx h) hd x _
  | false =>
    have hf := hpv.symm.trans hd
    cases hx : inU12a b.lbSet x with
    | true =>
      rw [pushScalar_unpack hlb hd hx, pushScalar_unpack hlb' hf (sim.lbSet ▸ hx)]
      exact sim.outs (sim.countIdx h) _
    | false =>
      rw [pushScalar_hold hlb hd hx, pushScalar_hold hlb' hf (sim.lbSet ▸ hx), ← sim.lbSet]
      exact sim.hold x _ h

theorem DecSim.acceptScalar (sim : DecSim b c R) (h : R d f) (x : Scalar) :
    R (acceptScalar b d x) (acceptScalar c f x) := by
  unfold Machine.acceptScalar
  rw [← sim.phase h]
  split
  · exact h
  · exact sim.pushScalar h x

theorem DecSim.endScalars (sim : DecSim b c R) (h : R d f) : R (endScalars b d) (endScalars c f) := by
  unfold Machine.endScalars Machine.classifyLone
  rw [← sim.phase h, ← sim.pv h]
  refine sim.finish ?_
  split
  case isTrue hpending =>
    obtain ⟨-, hpv⟩ := hpending
    obtain ⟨-, hpc⟩ := sim.pending h hpv
    rw [← hpc]
    split
    · exact sim.outLast h hpv
    · exact sim.raise _ _ h hpv
  case isFalse => exact h

theorem DecSim.decRunning (sim : DecSim b c R) (h : R d f) : decRunning d = decRunning f := by
  unfold Machine.decRunning
  rw [sim.phase h]

theorem DecSim.decStartOp (sim : DecSim b c R) (h : R d f) (m : CMode) : R (decStartOp d m) (decStartOp f m) := by
  unfold Machine.decStartOp
  rw [← sim.decRunning h]
  split
  · exact h
  · exact sim.start m h

theorem DecSim.pairSelects (sim : DecSim b c R) (h : R d f) (x : Scalar) (sel : BitVec 7) :
    pairSelects b d x sel = pairSelects c f x sel := by
  unfold Machine.pairSelects
  rw [← sim.phase h, ← sim.pv h, ← sim.lbSet]
  cases hpv : d.pv with
  | true => rw [(sim.pending h hpv).2]
  | false => simp

theorem DecSim.loneSelects (sim : DecSim b c R) (h : R d f) (sel : BitVec 7) :
    loneSelects d sel = loneSelects f sel := by
  unfold Machine.loneSelects
  rw [← sim.phase h, ← sim.pv h]
  cases hpv : d.pv with
  | true => rw [(sim.pending h hpv).2]
  | false => simp

theorem pv_of_pairSelects {x : Scalar} {sel : BitVec 7} (h : pairSelects b d x sel = true) : d.pv = true := by
  obtain ⟨-, hpv, -⟩ := (pairSelects_iff b d x sel).mp h
  exact hpv

theorem pv_of_loneSelects {sel : BitVec 7} (h : loneSelects d sel = true) : d.pv = true := by
  obtain ⟨-, hpv, -⟩ := (loneSelects_iff d sel).mp h
  exact hpv

/-- Every action keeps the relation, and both units accept it or neither. -/
theorem DecSim.decAction (sim : DecSim b c R) (h : R d f) (i : Instr) :
    Option.Rel R (decAction b d i) (decAction c f i) := by
  have hpair (x : Scalar) (sel : BitVec 7) := sim.pairSelects h x sel
  have hlone (sel : BitVec 7) := sim.loneSelects h sel
  have hrunning : Machine.decRunning d = true ↔ Machine.decRunning f = true := by rw [sim.decRunning h]
  cases i with
  | dSkipLb x => exact rel_ite (by rw [sim.phase h, sim.lbSet]) fun _ => h
  | dApair hasNext cls1 k x => exact rel_ite (by rw [sim.phase h, sim.pv h, sim.lbSet]) fun _ => sim.outs h _
  | dTriple x => exact rel_ite (by rw [hpair]) fun hsel => sim.outTriple h (pv_of_pairSelects hsel) x
  | dRun x => exact rel_ite (by rw [hpair]) fun hsel => sim.outRun h (pv_of_pairSelects hsel) x
  | dSs x => exact rel_ite (by rw [hpair]) fun hsel => sim.outSs h (pv_of_pairSelects hsel) x
  | dLast cls1 => exact rel_ite (by rw [hlone]) fun hsel => sim.outLast h (pv_of_loneSelects hsel)
  | dErrPair cls1 cls0 x =>
    exact rel_ite (by rw [hpair]) fun hsel => sim.raise _ _ h (pv_of_pairSelects (Bool.and_eq_true_iff.mp hsel).1)
  | dErrLone cls1 cls0 =>
    exact rel_ite (by rw [hlone]) fun hsel => sim.raise _ _ h (pv_of_loneSelects (Bool.and_eq_true_iff.mp hsel).1)
  | decPush x => exact rel_ite hrunning fun _ => sim.acceptScalar h x
  | decEnd => exact rel_ite hrunning fun _ => sim.endScalars h
  | decStart m => exact .some (sim.decStartOp h _)
  | wrreg n v =>
    refine .some ?_
    split
    · exact sim.decStartOp h _
    · exact h
  | reset => exact .some (sim.refl Dec.reset)
  | _ => exact .some h

end

end Sys2Proof.Machine
end

section
/-! SUPPORT. The two relations of Safety as relations of units that every update keeps, and with them a step of the two
machines in lockstep. -/

namespace Sys2Proof.Machine

/-! ### Contents that the spec leaves open (R27, R34) -/

/-- The unit `f` is `e` but for the window registers beyond WCNT and the run register in WIN mode. -/
theorem encSameVisible_iff {e f : Enc} :
    EncSameVisible e f ↔ ∃ w0 w1 rb rc, f = { e with w0 := w0, w1 := w1, rb := rb, rc := rc } ∧
      (1 ≤ e.wcnt.toNat → e.w0 = w0) ∧ (2 ≤ e.wcnt.toNat → e.w1 = w1) ∧ (e.mode = .run → e.rb = rb ∧ e.rc = rc) := by
  constructor
  · rintro ⟨hphase, hmode, hwcnt, h0, h1, hrun, hin, hcount, hovf, hout⟩
    refine ⟨f.w0, f.w1, f.rb, f.rc, ?_, h0, h1, hrun⟩
    rw [hphase, hmode, hwcnt, hin, hcount, hovf, hout]
  · rintro ⟨w0, w1, rb, rc, rfl, h0, h1, hrun⟩
    exact ⟨rfl, rfl, rfl, h0, h1, hrun, rfl, rfl, rfl, rfl⟩

theorem encSameVisible_sim (b : Build) : EncSim b b EncSameVisible where
  refl e := encSameVisible_iff.mpr ⟨e.w0, e.w1, e.rb, e.rc, rfl, fun _ => rfl, fun _ => rfl, fun _ => ⟨rfl, rfl⟩⟩
  phase h := by obtain ⟨w0, w1, rb, rc, rfl, -⟩ := encSameVisible_iff.mp h; rfl
  mode h := by obtain ⟨w0, w1, rb, rc, rfl, -⟩ := encSameVisible_iff.mp h; rfl
  wcnt h := by obtain ⟨w0, w1, rb, rc, rfl, -⟩ := encSameVisible_iff.mp h; rfl
  w0 h hle := by obtain ⟨w0, w1, rb, rc, rfl, h0, -⟩ := encSameVisible_iff.mp h; exact h0 hle
  w1 h hle := by obtain ⟨w0, w1, rb, rc, rfl, -, h1, -⟩ := encSameVisible_iff.mp h; exact h1 hle
  run h hm := by obtain ⟨w0, w1, rb, rc, rfl, -, -, hrun⟩ := encSameVisible_iff.mp h; exact hrun hm
  emit x h := by
    obtain ⟨w0, w1, rb, rc, rfl, hvisible⟩ := encSameVisible_iff.mp h
    exact encSameVisible_iff.mpr ⟨w0, w1, rb, rc, rfl, hvisible⟩
  countIn h := by
    obtain ⟨w0, w1, rb, rc, rfl, hvisible⟩ := encSameVisible_iff.mp h
    exact encSameVisible_iff.mpr ⟨w0, w1, rb, rc, rfl, hvisible⟩
  openRun x h := by
    obtain ⟨w0, w1, rb, rc, rfl, -⟩ := encSameVisible_iff.mp h
    exact encSameVisible_iff.mpr ⟨w0, w1, x, 3#12, rfl, by simp, by simp, fun _ => ⟨rfl, rfl⟩⟩
  growRun h hm := by
    obtain ⟨w0, w1, rb, rc, rfl, h0, h1, hrun⟩ := encSameVisible_iff.mp h
    obtain ⟨hrb, hrc⟩ := hrun hm
    exact encSameVisible_iff.mpr ⟨w0, w1, rb, rc + 1#12, rfl, h0, h1, fun _ => ⟨hrb, hrc ▸ rfl⟩⟩
  leaveRun h := by
    obtain ⟨w0, w1, rb, rc, rfl, h0, h1, -⟩ := encSameVisible_iff.mp h
    exact encSameVisible_iff.mpr ⟨w0, w1, rb, rc, rfl, h0, h1, by simp⟩
  holdNone h := by
    obtain ⟨w0, w1, rb, rc, rfl, -, -, hrun⟩ := encSameVisible_iff.mp h
    exact encSameVisible_iff.mpr ⟨w0, w1, rb, rc, rfl, by simp, by simp, hrun⟩
  holdOne x h := by
    obtain ⟨w0, w1, rb, rc, rfl, -, -, hrun⟩ := encSameVisible_iff.mp h
    exact encSameVisible_iff.mpr ⟨x, w1, rb, rc, rfl, fun _ => rfl, by simp, hrun⟩
  holdTwo x h hone := by
    obtain ⟨w0, w1, rb, rc, rfl, h0, -, hrun⟩ := encSameVisible_iff.mp h
    exact encSameVisible_iff.mpr ⟨w0, x, rb, rc, rfl, fun _ => h0 (by simp [hone]), fun _ => rfl, hrun⟩
  finish h := by
    obtain ⟨w0, w1, rb, rc, rfl, hvisible⟩ := encSameVisible_iff.mp h
    exact encSameVisible_iff.mpr ⟨w0, w1, rb, rc, rfl, hvisible⟩
  start h := by
    obtain ⟨w0, w1, rb, rc, rfl, -⟩ := encSameVisible_iff.mp h
    exact encSameVisible_iff.mpr ⟨w0, w1, 0#8, 0#12, rfl, by simp, by simp, by simp⟩

/-- The unit `f` is `d` but for the pending register while PV = 0. -/
theorem decSameVisible_iff {d f : Dec} :
    DecSameVisible d f ↔ ∃ p pc pidx, f = { d with p := p, pc := pc, pidx := pidx } ∧
      (d.pv = true → d.p = p ∧ d.pc = pc ∧ d.pidx = pidx) := by
  constructor
  · rintro ⟨hphase, hmode, hpv, hpending, hidx, hcount, herr, hkind, herrIdx, hsel, hovf, hout⟩
    refine ⟨f.p, f.pc, f.pidx, ?_, hpending⟩
    rw [hphase, hmode, hpv, hidx, hcount, herr, hkind, herrIdx, hsel, hovf, hout]
  · rintro ⟨p, pc, pidx, rfl, hpending⟩
    exact ⟨rfl, rfl, rfl, hpending, rfl, rfl, rfl, rfl, rfl, rfl, rfl, rfl⟩

theorem decSameVisible_sim (b : Build) : DecSim b b DecSameVisible where
  lbSet := rfl
  refl d := decSameVisible_iff.mpr ⟨d.p, d.pc, d.pidx, rfl, fun _ => ⟨rfl, rfl, rfl⟩⟩
  phase h := by obtain ⟨p, pc, pidx, rfl, -⟩ := decSameVisible_iff.mp h; rfl
  pv h := by obtain ⟨p, pc, pidx, rfl, -⟩ := decSameVisible_iff.mp h; rfl
  pending h hpv := by
    obtain ⟨p, pc, pidx, rfl, hpending⟩ := decSameVisible_iff.mp h
    obtain ⟨hp, hpc, -⟩ := hpending hpv
    exact ⟨hp, hpc⟩
  out x h := by
    obtain ⟨p, pc, pidx, rfl, hpending⟩ := decSameVisible_iff.mp h
    exact decSameVisible_iff.mpr ⟨p, pc, pidx, rfl, hpending⟩
  countIdx h := by
    obtain ⟨p, pc, pidx, rfl, hpending⟩ := decSameVisible_iff.mp h
    exact decSameVisible_iff.mpr ⟨p, pc, pidx, rfl, hpending⟩
  hold x k h := by
    obtain ⟨p, pc, pidx, rfl, -⟩ := decSameVisible_iff.mp h
    exact decSameVisible_iff.mpr ⟨x, k, _, rfl, fun _ => ⟨rfl, rfl, rfl⟩⟩
  consume h := by
    obtain ⟨p, pc, pidx, rfl, -⟩ := decSameVisible_iff.mp h
    exact decSameVisible_iff.mpr ⟨p, pc, pidx, rfl, by simp⟩
  raise kind sel h hpv := by
    obtain ⟨p, pc, pidx, rfl, hpending⟩ := decSameVisible_iff.mp h
    obtain ⟨-, -, hidx⟩ := hpending hpv
    rw [hidx]
    exact decSameVisible_iff.mpr ⟨p, pc, pidx, rfl, by simp⟩
  finish h := by
    obtain ⟨p, pc, pidx, rfl, hpending⟩ := decSameVisible_iff.mp h
    exact decSameVisible_iff.mpr ⟨p, pc, pidx, rfl, hpending⟩
  start m h := by
    obtain ⟨p, pc, pidx, rfl, -⟩ := decSameVisible_iff.mp h
    exact decSameVisible_iff.mpr ⟨p, pc, pidx, rfl, by simp⟩

/-! ### Counters (R31, R41, R305) -/

/-- ENC with other contents in its counters. -/
def Enc.withCounters (e : Enc) (i o : HostWord) (v : Bool) : Enc := { e with inCount := i, outCount := o, ovf := v }

theorem encSameButCounters_iff {e f : Enc} : EncSameButCounters e f ↔ ∃ i o v, f = e.withCounters i o v := by
  constructor
  · rintro ⟨hphase, hmode, hwcnt, h0, h1, hrb, hrc, hout⟩
    refine ⟨f.inCount, f.outCount, f.ovf, ?_⟩
    rw [Enc.withCounters, hphase, hmode, hwcnt, h0, h1, hrb, hrc, hout]
  · rintro ⟨i, o, v, rfl⟩
    exact ⟨rfl, rfl, rfl, rfl, rfl, rfl, rfl, rfl⟩

/-- Two updates that differ in what they leave in the counters alone. -/
theorem encSameButCounters_update (u w : Enc → Enc)
    (hu : ∀ e i o v, ∃ i' o' v', w (e.withCounters i o v) = (u e).withCounters i' o' v') {e f : Enc}
    (h : EncSameButCounters e f) : EncSameButCounters (u e) (w f) := by
  obtain ⟨i, o, v, rfl⟩ := encSameButCounters_iff.mp h
  exact encSameButCounters_iff.mpr (hu e i o v)

/-- An update that does not touch the counters. -/
theorem encSameButCounters_control (u : Enc → Enc)
    (hu : ∀ e i o v, u (e.withCounters i o v) = (u e).withCounters i o v) {e f : Enc} (h : EncSameButCounters e f) :
    EncSameButCounters (u e) (u f) :=
  encSameButCounters_update u u (fun e i o v => ⟨i, o, v, hu e i o v⟩) h

/-- No update of ENC reads a counter but to write one. -/
theorem encSameButCounters_sim (b c : Build) : EncSim b c EncSameButCounters where
  refl e := encSameButCounters_iff.mpr ⟨_, _, _, rfl⟩
  phase h := by obtain ⟨i, o, v, rfl⟩ := encSameButCounters_iff.mp h; rfl
  mode h := by obtain ⟨i, o, v, rfl⟩ := encSameButCounters_iff.mp h; rfl
  wcnt h := by obtain ⟨i, o, v, rfl⟩ := encSameButCounters_iff.mp h; rfl
  w0 h _ := by obtain ⟨i, o, v, rfl⟩ := encSameButCounters_iff.mp h; rfl
  w1 h _ := by obtain ⟨i, o, v, rfl⟩ := encSameButCounters_iff.mp h; rfl
  run h _ := by obtain ⟨i, o, v, rfl⟩ := encSameButCounters_iff.mp h; exact ⟨rfl, rfl⟩
  emit x := encSameButCounters_update (encEmit b · x) (encEmit c · x) fun _ _ _ _ => ⟨_, _, _, rfl⟩
  countIn := encSameButCounters_update (countIn b) (countIn c) fun _ _ _ _ => ⟨_, _, _, rfl⟩
  openRun x :=
    encSameButCounters_control ({ · with mode := .run, rb := x, rc := 3#12, wcnt := 0#2 }) fun _ _ _ _ => rfl
  growRun h _ := encSameButCounters_control (fun e => { e with rc := e.rc + 1#12 }) (fun _ _ _ _ => rfl) h
  leaveRun := encSameButCounters_control ({ · with mode := .win }) fun _ _ _ _ => rfl
  holdNone := encSameButCounters_control ({ · with wcnt := 0#2 }) fun _ _ _ _ => rfl
  holdOne x := encSameButCounters_control ({ · with w0 := x, wcnt := 1#2 }) fun _ _ _ _ => rfl
  holdTwo x h _ := encSameButCounters_control ({ · with w1 := x, wcnt := 2#2 }) (fun _ _ _ _ => rfl) h
  finish := encSameButCounters_control ({ · with phase := .done }) fun _ _ _ _ => rfl
  start := encSameButCounters_update startEnc startEnc fun _ _ _ _ => ⟨_, _, _, rfl⟩

/-- DEC with other contents in its counters and in the indices copied from IDX. -/
def Dec.withCounters (d : Dec) (i o p e : HostWord) (v : Bool) : Dec :=
  { d with idx := i, outCount := o, pidx := p, errIdx := e, ovf := v }

theorem decSameButCounters_iff {d f : Dec} : DecSameButCounters d f ↔ ∃ i o p e v, f = d.withCounters i o p e v := by
  constructor
  · rintro ⟨hphase, hmode, hpv, hp, hpc, herr, hkind, hsel, hout⟩
    refine ⟨f.idx, f.outCount, f.pidx, f.errIdx, f.ovf, ?_⟩
    rw [Dec.withCounters, hphase, hmode, hpv, hp, hpc, herr, hkind, hsel, hout]
  · rintro ⟨i, o, p, e, v, rfl⟩
    exact ⟨rfl, rfl, rfl, rfl, rfl, rfl, rfl, rfl, rfl⟩

theorem decSameButCounters_update (u w : Dec → Dec)
    (hu : ∀ d i o p e v, ∃ i' o' p' e' v', w (d.withCounters i o p e v) = (u d).withCounters i' o' p' e' v')
    {d f : Dec} (h : DecSameButCounters d f) : DecSameButCounters (u d) (w f) := by
  obtain ⟨i, o, p, e, v, rfl⟩ := decSameButCounters_iff.mp h
  exact decSameButCounters_iff.mpr (hu d i o p e v)

/-- No update of DEC reads a counter but to write a counter or an index. -/
theorem decSameButCounters_sim {b c : Build} (hlb : b.lbSet = c.lbSet) : DecSim b c DecSameButCounters where
  lbSet := hlb
  refl d := decSameButCounters_iff.mpr ⟨_, _, _, _, _, rfl⟩
  phase h := by obtain ⟨i, o, p, e, v, rfl⟩ := decSameButCounters_iff.mp h; rfl
  pv h := by obtain ⟨i, o, p, e, v, rfl⟩ := decSameButCounters_iff.mp h; rfl
  pending h _ := by obtain ⟨i, o, p, e, v, rfl⟩ := decSameButCounters_iff.mp h; exact ⟨rfl, rfl⟩
  out x := decSameButCounters_update (decOut b · x) (decOut c · x) fun _ _ _ p e _ => ⟨_, _, p, e, _, rfl⟩
  countIdx := decSameButCounters_update (countIdx b) (countIdx c) fun _ _ _ p e _ => ⟨_, _, p, e, _, rfl⟩
  hold x k :=
    decSameButCounters_update (fun d => holdScalar (countIdx b d) x k d.idx)
      (fun d => holdScalar (countIdx c d) x k d.idx) fun _ _ _ _ e _ => ⟨_, _, _, e, _, rfl⟩
  consume :=
    decSameButCounters_update ({ · with pv := false }) ({ · with pv := false }) fun _ i o p e v => ⟨i, o, p, e, v, rfl⟩
  raise kind sel h _ :=
    decSameButCounters_update (fun d => raiseDecodeError d kind d.pidx sel)
      (fun d => raiseDecodeError d kind d.pidx sel) (fun _ i o p _ v => ⟨i, o, p, _, v, rfl⟩) h
  finish :=
    decSameButCounters_update returnFromTransaction returnFromTransaction fun _ i o p e v => ⟨i, o, p, e, v, rfl⟩
  start m := decSameButCounters_update (startDec · m) (startDec · m) fun _ _ _ p _ _ => ⟨_, _, p, _, _, rfl⟩

/-! ### A step of both machines -/

/-- The two units alike by relations that every action keeps, and the host's side the same. -/
structure Lockstep (RE : Enc → Enc → Prop) (RD : Dec → Dec → Prop) (RA : Response → Response → Prop) (s t : State) :
    Prop where
  enc : RE s.enc t.enc
  dec : RD s.dec t.dec
  resp : RA s.resp t.resp
  inputs : s.inputs = t.inputs
  held : s.held = t.held

section

variable {RE : Enc → Enc → Prop} {RD : Dec → Dec → Prop} {RA : Response → Response → Prop} {s t : State}

/-- Related answers are both a refusal or neither. -/
def TellsRefusal (RA : Response → Response → Prop) : Prop :=
  RA .notAccepted .notAccepted ∧ ∀ {q r : Response}, RA q r → (q = .notAccepted ↔ r = .notAccepted)

theorem lockstep_exec (simE : EncSim s.build t.build RE) (simD : DecSim s.build t.build RD) (hRA : TellsRefusal RA)
    (hanswer : ∀ i, RA (acceptedAnswer s i) (acceptedAnswer t i)) (h : Lockstep RE RD RA s t) (i : Instr) :
    ∃ s' t', exec i s = .next s' ∧ exec i t = .next t' ∧ s'.build = s.build ∧ t'.build = t.build ∧
      Lockstep RE RD RA s' t' := by
  have hE := simE.encAction h.enc i
  have hD := simD.decAction h.dec i
  refine ⟨_, _, exec_eq i s, exec_eq i t, rfl, rfl, rel_getD hE h.enc, rel_getD hD h.dec, ?_, h.inputs, h.held⟩
  show RA (answerTo s i) (answerTo t i)
  rw [answerTo, answerTo, rel_isSome hE, rel_isSome hD]
  split
  · exact hanswer i
  · exact hRA.1

/-- A beat is put aside by both machines or by neither. -/
theorem lockstep_hold (hRA : TellsRefusal RA) (h : Lockstep RE RD RA s t) (beat : Beat) :
    ∃ s' t', holdIfNotAccepted beat (.next s) = .next s' ∧ holdIfNotAccepted beat (.next t) = .next t' ∧
      s'.build = s.build ∧ t'.build = t.build ∧ Lockstep RE RD RA s' t' := by
  have hrefused : s.resp = .notAccepted ∧ beat.isHost = true ↔ t.resp = .notAccepted ∧ beat.isHost = true :=
    and_congr_left' (hRA.2 h.resp)
  by_cases hs : s.resp = .notAccepted ∧ beat.isHost = true
  · obtain ⟨hrefused', -⟩ := hrefused.mp hs
    refine ⟨_, _, holdIfNotAccepted_held hs.1 hs.2, holdIfNotAccepted_held hrefused' hs.2, rfl, rfl, h.enc, h.dec,
      h.resp, h.inputs, ?_⟩
    exact congrArg (· ++ [beat]) h.held
  · exact ⟨_, _, if_neg hs, if_neg (mt hrefused.mpr hs), rfl, rfl, h⟩

/-- Two machines in lockstep take the same steps, and stay in lockstep. -/
theorem lockstep_step {s' : State} (simE : EncSim s.build t.build RE) (simD : DecSim s.build t.build RD)
    (hRA : TellsRefusal RA)
    (hanswer : ∀ i rest, RA (acceptedAnswer { s with inputs := rest } i) (acceptedAnswer { t with inputs := rest } i))
    (hbuild : buildValid s.build = true → buildValid t.build = true) (h : Lockstep RE RD RA s t)
    (hstep : step s = .next s') :
    ∃ t', step t = .next t' ∧ s'.build = s.build ∧ t'.build = t.build ∧ Lockstep RE RD RA s' t' := by
  have hs : buildValid s.build = true := by
    by_contra hinvalid
    rw [step, if_neg hinvalid] at hstep
    cases hstep
  have ht := hbuild hs
  obtain ⟨hin, rfl⟩ | ⟨beat, rest, i, -, hin, hdec, -⟩ := step_eq_next hstep
  · refine ⟨t, ?_, rfl, rfl, h⟩
    rw [step, if_pos ht, fetch, ← h.inputs, hin]
  · have hdequeued : Lockstep RE RD RA { s with inputs := rest } { t with inputs := rest } :=
      ⟨h.enc, h.dec, h.resp, rfl, h.held⟩
    obtain ⟨u, v, hu, hv, hub, hvb, huv⟩ := lockstep_exec (s := { s with inputs := rest })
      (t := { t with inputs := rest }) simE simD hRA (hanswer · rest) hdequeued i
    obtain ⟨u', v', hu', hv', hub', hvb', huv'⟩ := lockstep_hold hRA huv beat
    rw [step_eq_exec hs hin hdec, hu, hu'] at hstep
    obtain rfl := Host.Outcome.next.inj hstep
    refine ⟨v', ?_, hub'.trans hub, hvb'.trans hvb, huv'⟩
    rw [step_eq_exec ht (h.inputs.symm.trans hin) hdec, hv, hv']

end

/-! ### The two statements -/

/-- The registers a host reads show none of the contents left open (R54). -/
theorem view_of_sameVisible {s t : State} (h : SameVisible s t) (n : BitVec 4) : view s n = view t n := by
  obtain ⟨-, henc, hdec, -⟩ := h
  obtain ⟨w0, w1, rb, rc, he, -⟩ := encSameVisible_iff.mp henc
  obtain ⟨p, pc, pidx, hd, -⟩ := decSameVisible_iff.mp hdec
  unfold view
  rw [he, hd]
  rfl

theorem acceptedAnswer_of_sameVisible {s t : State} (h : SameVisible s t) (i : Instr) :
    acceptedAnswer s i = acceptedAnswer t i := by
  cases i with
  | rdreg n => exact congrArg Response.rdata (view_of_sameVisible h n)
  | _ => simp only [acceptedAnswer, h.1]

theorem observe_of_sameVisible {s t : State} (h : SameVisible s t) : observe s = observe t := by
  have hview := view_of_sameVisible h
  obtain ⟨-, henc, hdec, hresp, -⟩ := h
  obtain ⟨w0, w1, rb, rc, he, -⟩ := encSameVisible_iff.mp henc
  obtain ⟨p, pc, pidx, hd, -⟩ := decSameVisible_iff.mp hdec
  simp only [observe, hview, hresp, he, hd]

/-- Settles O59: the rules and the views read no content left open, and every update keeps such contents apart. -/
theorem openContentsAreUnobservable : Obligations.OpenContentsAreUnobservable := by
  intro s t h
  refine ⟨observe_of_sameVisible h, fun s' hstep => ?_⟩
  obtain ⟨hbuild, henc, hdec, hresp, hin, hheld⟩ := h
  have hlock : Lockstep EncSameVisible DecSameVisible Eq s t := ⟨henc, hdec, hresp, hin, hheld⟩
  have hrefusal : TellsRefusal Eq := ⟨rfl, fun h => by rw [h]⟩
  obtain ⟨t', ht', hs'b, ht'b, hlock'⟩ := lockstep_step (hbuild ▸ encSameVisible_sim s.build)
    (hbuild ▸ decSameVisible_sim s.build) hrefusal
    (fun i rest => acceptedAnswer_of_sameVisible (s := { s with inputs := rest }) (t := { t with inputs := rest })
      ⟨hbuild, henc, hdec, hresp, rfl, hheld⟩ i)
    (fun hs => hbuild ▸ hs) hlock hstep
  exact ⟨t', ht', hs'b.trans (hbuild.trans ht'b.symm), hlock'.enc, hlock'.dec, hlock'.resp, hlock'.inputs, hlock'.held⟩

theorem sameAnswer_iff {q r : Response} :
    sameAnswer q r = true ↔ q = r ∨ ∃ v w, q = .rdata v ∧ r = .rdata w := by
  unfold sameAnswer
  split
  case h_1 v w => exact iff_of_true rfl (.inr ⟨v, w, rfl, rfl⟩)
  case h_2 hread =>
    refine beq_iff_eq.trans (or_iff_left ?_).symm
    rintro ⟨v, w, hq, hr⟩
    exact hread v w hq hr

theorem sameAnswer_tellsRefusal : TellsRefusal (sameAnswer · · = true) := by
  refine ⟨rfl, fun {q r} h => ?_⟩
  obtain rfl | ⟨v, w, rfl, rfl⟩ := sameAnswer_iff.mp h
  · exact Iff.rfl
  · simp

/-- A PRIM result reads LB_SET alone; two register reads are the same answer whatever they read. -/
theorem acceptedAnswer_sameAnswer {s t : State} (h : s.build.lbSet = t.build.lbSet) (i : Instr) :
    sameAnswer (acceptedAnswer s i) (acceptedAnswer t i) = true := by
  cases i with
  | rdreg => rfl
  | _ =>
    simp only [acceptedAnswer, h]
    exact sameAnswer_iff.mpr (.inl rfl)

/-- Settles O60: no rule reads a counter, so the two machines stay in lockstep whatever their counters hold. -/
theorem countersChangeNoOutput : Obligations.CountersChangeNoOutput := by
  intro s t s' h hs ht hstep
  obtain ⟨hlb, henc, hdec, hresp, hin, hheld⟩ := h
  have hlock : Lockstep EncSameButCounters DecSameButCounters (sameAnswer · · = true) s t :=
    ⟨henc, hdec, hresp, hin, hheld⟩
  obtain ⟨t', ht', hs'b, ht'b, hlock'⟩ := lockstep_step (encSameButCounters_sim _ _) (decSameButCounters_sim hlb)
    sameAnswer_tellsRefusal (fun i rest => acceptedAnswer_sameAnswer hlb i) (fun _ => ht) hlock hstep
  refine ⟨t', ht', ?_, hlock'.enc, hlock'.dec, hlock'.resp, hlock'.inputs, hlock'.held⟩
  rw [hs'b, ht'b, hlb]

end Sys2Proof.Machine
end

section
/-! SUPPORT. The reset state (R56). -/

namespace Sys2Proof.Machine

/-- Settles O47: the reset state, evaluated. -/
theorem resetStateReadsZero : Obligations.ResetStateReadsZero := by
  unfold Obligations.ResetStateReadsZero
  decide

/-- Settles O57: the standard build is UBC-1, and each unit meets its invariant at reset in every build. -/
theorem invariantHoldsAtReset : Obligations.InvariantHoldsAtReset :=
  ⟨by decide, encReset_encInv _, decReset_decInv _⟩

end Sys2Proof.Machine
end
